-- ==== Sys2Proof/Word.lean ====
section
/-! DEFINITION. The word types of the block (00_scope.md R13, R14): bytes and the 32-bit and 64-bit words
the two algorithms compute on. Every integer of the spec is unsigned, so these are plain bit vectors. -/

namespace Sys2Proof

/-- A byte of a byte sequence, or of the private buffer (R14). -/
abbrev Byte := BitVec 8

/-- A 4-bit value of the tables behind q0 and q1 (R78). -/
abbrev Nibble := BitVec 4

/-- A host register, a command word, or a word of the block cipher (R12, R77). -/
abbrev Word32 := BitVec 32

/-- A word of the hash engine (R64). -/
abbrev Word64 := BitVec 64

/-- A cipher key: exactly 32 bytes (R11). -/
abbrev Key := Vector Byte 32

/-- A cipher block: exactly 16 bytes (R11). -/
abbrev Block := Vector Byte 16

/-- A token of the payload framing: 16 bytes (R11, R112). -/
abbrev Token := Vector Byte 16

/-- A digest: exactly 64 bytes (R11). -/
abbrev Digest := Vector Byte 64

end Sys2Proof
end

