-- ==== Sys2Proof/Syntax.lean ====
section
/-! DEFINITION. The commands of the block (30_encoding.md R58), the fields of a command word (R57), the reasons a
word is illegal (R59) and the error codes a command can end with (R60). -/

namespace Sys2Proof

/-- The eleven commands of R58, one constructor per row of the opcode table. A command word holds no operand: every
operand comes from SRC_ADDR, SRC_LEN and DST_ADDR, latched at issue (R57). -/
inductive Instr where
  | nop
  | hash
  | ecbEncrypt
  | ecbDecrypt
  | cbcEncrypt
  | cbcDecrypt
  | setPassword
  | invalidate
  | payloadEncrypt
  | payloadDecrypt
  | selftest
deriving DecidableEq, Repr

/-- The two fields of a command word (R57): OPC in bits 7:0, RSV in bits 31:8. -/
structure CommandWord where
  rsv : BitVec 24
  opc : BitVec 8
deriving DecidableEq, Repr

/-- Why a command word is illegal (R59). -/
inductive DecodeError where
  /-- RSV is not 0. -/
  | reservedNonzero
  /-- OPC is not in the table of R58. -/
  | unassignedOpcode
deriving DecidableEq, Repr

/-- The error classifications of R60; STATUS.ERR takes no other value. -/
inductive ErrCode where
  | ok
  | illegalCmd
  | notTested
  | noKey
  | range
  | badLength
  | randomnessUnavailable
  | foreignFormat
  | corrupted
  | integrityMismatch
  | selftestFailure
deriving DecidableEq, Repr

end Sys2Proof
end

