-- ==== Sys2Proof/WellFormed.lean ====
section
/-! DEFINITION. The checks that make a command word legal (30_encoding.md R57, R59), and the well-formedness of a
command as syntax. -/

namespace Sys2Proof

/-- RSV must be 0 (R57). -/
def CommandWord.rsvZero (c : CommandWord) : Bool := c.rsv == 0

/-- The assigned opcodes of R58. -/
def assignedOpcodes : List (BitVec 8) :=
  [0x00, 0x01, 0x10, 0x11, 0x20, 0x21, 0x30, 0x31, 0x40, 0x41, 0x50]

/-- OPC is one of the assigned opcodes (R58, R59). -/
def CommandWord.opcAssigned (c : CommandWord) : Bool := assignedOpcodes.contains c.opc

/-- A legal command word (R59). -/
def CommandWord.wf (c : CommandWord) : Bool := c.rsvZero && c.opcAssigned

/-- Every command is well formed as syntax: it has no operand field that could be out of range (R57). -/
def Instr.wf : Instr → Bool
  | .nop            => true
  | .hash           => true
  | .ecbEncrypt     => true
  | .ecbDecrypt     => true
  | .cbcEncrypt     => true
  | .cbcDecrypt     => true
  | .setPassword    => true
  | .invalidate     => true
  | .payloadEncrypt => true
  | .payloadDecrypt => true
  | .selftest       => true

end Sys2Proof
end

