-- ==== Sys2Proof/Decode.lean ====
section
/-! DEFINITION. The decoder and the encoder of the 32-bit command word (30_encoding.md R57 to R59). The decoder is
total: a word that is not a command is refused with the reason R59 gives. -/

namespace Sys2Proof

/-- The fields of a command word (R57). -/
def commandFields (w : Word32) : CommandWord :=
  { rsv := w.extractLsb' 8 24, opc := w.extractLsb' 0 8 }

/-- The opcode map of R58, read from opcode to command. -/
def decodeOpcode (opc : BitVec 8) : Option Instr :=
  match opc.toNat with
  | 0x00 => some .nop
  | 0x01 => some .hash
  | 0x10 => some .ecbEncrypt
  | 0x11 => some .ecbDecrypt
  | 0x20 => some .cbcEncrypt
  | 0x21 => some .cbcDecrypt
  | 0x30 => some .setPassword
  | 0x31 => some .invalidate
  | 0x40 => some .payloadEncrypt
  | 0x41 => some .payloadDecrypt
  | 0x50 => some .selftest
  | _    => none

/-- The command a word stands for, or why the word is illegal (R57 to R59). -/
def decode (w : Word32) : Except DecodeError Instr :=
  let c := commandFields w
  if c.rsv ≠ 0 then .error .reservedNonzero
  else match decodeOpcode c.opc with
    | some i => .ok i
    | none   => .error .unassignedOpcode

/-- The opcode map of R58, read from command to opcode. -/
def opcode : Instr → BitVec 8
  | .nop            => 0x00
  | .hash           => 0x01
  | .ecbEncrypt     => 0x10
  | .ecbDecrypt     => 0x11
  | .cbcEncrypt     => 0x20
  | .cbcDecrypt     => 0x21
  | .setPassword    => 0x30
  | .invalidate     => 0x31
  | .payloadEncrypt => 0x40
  | .payloadDecrypt => 0x41
  | .selftest       => 0x50

/-- The word of a command: RSV = 0 above its opcode (R57). -/
def encode (i : Instr) : Word32 := (0 : BitVec 24) ++ opcode i

/-- The command in the `nbits` bits of `w`, numbered as the opcode table numbers them. A command is one 32-bit word
(R57), so a longer one is none. -/
def decodeTableWord (nbits w : Nat) : Option Instr :=
  if nbits ≤ 32 ∧ w < 2 ^ nbits then (decode (BitVec.ofNat 32 w)).toOption else none

end Sys2Proof
end

