-- ==== Sys2Proof/Config.lean ====
section
/-! DEFINITION. The implementation parameters of 00_scope.md R10 and the free values of the spec: the bytes that
nothing has written (20_memory.md R48) and the answers of the randomness source (60_exceptions.md R137). -/

namespace Sys2Proof

/-- The parameters `MARKER`, `STRETCH_ROUNDS` and `BUF_BYTES` of R10, laid out so that every value of the type is
one of the legal values: `BUF_BYTES` is a power of two from 256 to 65536, `M` is 1 to 64, and `STRETCH_ROUNDS` is
0 to 2^32 - 1. -/
structure Params where
  /-- `BUF_BYTES = 2 ^ (8 + bufLog)`. -/
  bufLog        : Fin 9
  /-- `STRETCH_ROUNDS`, the number of re-hashes of the key stretching (R100). -/
  stretchRounds : Word32
  /-- `M = markerLast + 1`: the index of the last byte of `MARKER`. -/
  markerLast    : Fin 64
  /-- The bytes of `MARKER`; only the first `M` of them count. -/
  markerBytes   : Vector Byte 64
deriving DecidableEq, Repr, Inhabited

/-- `BUF_BYTES`, the size of the private buffer in bytes (R10). -/
def Params.bufBytes (c : Params) : Nat := 2 ^ (8 + c.bufLog.val)

/-- `M`, the length of the marker (R10). -/
def Params.markerLen (c : Params) : Nat := c.markerLast.val + 1

/-- `MARKER`, the payload format marker (R10, R111). -/
def Params.marker (c : Params) : List Byte := c.markerBytes.toList.take c.markerLen

/-- One answer of the randomness source: 16 bytes, or UNAVAILABLE (R137). -/
inductive TrngAnswer where
  | bytes (t : Token)
  | unavailable
deriving DecidableEq, Repr, Inhabited

/-- The parameters of this hardware. The spec leaves all three OPEN (R10; decisions D5, D22, D26), so this constant
has no value a proof could use (log entry 1). -/
opaque Config.params : Params

/-- What a buffer byte that nothing has written since reset reads as (R48): a draw for the `n`-th read of the buffer
and the buffer offset `a` (log entry 2). -/
opaque Config.unwrittenByte : (n : Nat) → (a : Nat) → Byte

/-- The randomness source's `n`-th answer, where the machine's inputs give none (R137; log entry 3). -/
opaque Config.trngFree : (n : Nat) → TrngAnswer

end Sys2Proof
end

