-- ==== Sys2Proof/Machine/State.lean ====
section
/-! DEFINITION. The whole state of the block (10_state.md R40), the inputs it meets from outside (00_scope.md R9), and
the state after reset (70_reset_and_hazards.md R142). -/

namespace Sys2Proof.Machine

/-- The private buffer (R39, R43) as a list of (offset, byte) pairs with strictly rising offsets. An offset that is
not listed is a byte nothing has written since reset (R142): it holds no value. -/
abbrev Memory := List Host.Cell

/-- The latched command `L = (cmd, src, len, dst)` of the sequencer (R33). -/
structure Latched where
  cmd : Word32
  src : Word32
  len : Word32
  dst : Word32
deriving DecidableEq, Repr

/-- The twelve host registers of R20. -/
inductive HostReg where
  | id | bufSize | status | cmd | srcAddr | srcLen | dstAddr | dstLen | intStatus | intEnable | markerLen
  | stretchRounds
deriving DecidableEq, Repr

/-- One host access: a read or a write of `width` bytes at a byte offset of the 0x20000-byte host window (R12, R41,
R44). A write narrower than 32 bits uses the low bytes of `value` (R45). -/
inductive Access where
  | read (width : Nat) (offset : BitVec 17)
  | write (width : Nat) (offset : BitVec 17) (value : Word32)
deriving DecidableEq, Repr

/-- What an agent outside or inside the block does next (R9): one host access, the Engine's completion step, or a
reset. A list of these is one interleaving. -/
inductive Event where
  | host (a : Access)
  | engine
  | reset
deriving DecidableEq, Repr

/-- The block's response to a host access: the data of a read, the completion of a write, or a bus error (R44,
R133). -/
inductive Response where
  | data (v : Word32)
  | done
  | busError
deriving DecidableEq, Repr

/-- The machine. The first group of fields is the state of R40; the second is the block's surroundings, which the
model holds as plain data so that a step is a function of the state. -/
structure State where
  /-- The private buffer, `buf` (R39). -/
  buf       : Memory
  /-- SRC_ADDR (R26). -/
  srcAddr   : Word32
  /-- SRC_LEN (R26). -/
  srcLen    : Word32
  /-- DST_ADDR (R26). -/
  dstAddr   : Word32
  /-- DST_LEN (R27). -/
  dstLen    : Word32
  /-- The sequencer (R33): the latched command while BUSY, nothing while IDLE. STATUS.BUSY is whether there is one. -/
  latched   : Option Latched
  /-- The Enclave Vault's 32 bytes (R34). -/
  vault     : Key
  /-- The vault's `valid` bit, which is STATUS.KEY_VALID (R34). -/
  keyValid  : Bool
  /-- STATUS.ST_DONE (R36). -/
  stDone    : Bool
  /-- STATUS.ST_PASS (R36). -/
  stPass    : Bool
  /-- STATUS.ERR (R24). -/
  err       : ErrCode
  /-- INT_STATUS.DONE (R28). -/
  intDone   : Bool
  /-- INT_STATUS.IGN (R28). -/
  intIgn    : Bool
  /-- INT_ENABLE.DONE_IE (R29). -/
  doneIe    : Bool
  /-- INT_ENABLE.IGN_IE (R29). -/
  ignIe     : Bool
  /-- The parameters this block was built with (R10): hardwired, so no step changes them. The model's own field. -/
  cfg       : Params
  /-- What the agents do next, oldest first (R9). The model's own field. -/
  inputs    : List Event
  /-- The randomness source's next answers, oldest first (R137). The model's own field. -/
  trng      : List TrngAnswer
  /-- How often the randomness source has been asked; numbers its free answers. The model's own field. -/
  trngDraws : Nat
  /-- How often the buffer has been read; numbers the draws for unwritten bytes (R48). The model's own field. -/
  bufReads  : Nat
  /-- The response to the last host access. The model's own field: it is the host's side of the bus. -/
  response  : Option Response
  /-- Every host access that got a bus error, oldest first; never cleared (R133). The model's own field. -/
  busErrors : List Access
deriving DecidableEq, Repr

/-- What stops the machine: nothing the spec describes does. -/
inductive Fault where
  /-- Raised by a command's meaning when it is called with no command latched. The Engine has no step enabled then
  (R122), and `step` never calls a meaning in such a state. Safe: the model stops where the block would do nothing. -/
  | engineIdle
deriving DecidableEq, Repr

/-- What the model has no meaning for. -/
inductive Refusal where
  /-- Raised by `exec` for a command whose meaning is not written. Safe: the model stops. No arm raises it. -/
  | notModelled (mnemonic : String)
deriving DecidableEq, Repr

/-- The machine right after reset (R142), with no inputs from outside. The parameters are the ones this hardware was
built with, of which nothing is known but their ranges. -/
def State.reset : State where
  buf       := []
  srcAddr   := 0
  srcLen    := 0
  dstAddr   := 0
  dstLen    := 0
  latched   := none
  vault     := Vector.replicate 32 0
  keyValid  := false
  stDone    := false
  stPass    := false
  err       := .ok
  intDone   := false
  intIgn    := false
  doneIe    := false
  ignIe     := false
  cfg       := Config.params
  inputs    := []
  trng      := []
  trngDraws := 0
  bufReads  := 0
  response  := none
  busErrors := []

end Sys2Proof.Machine
end

