-- ==== Sys2Proof/Machine/Flags.lean ====
section
/-! DEFINITION. The status, interrupt and error fields as the host sees them (10_state.md R24, R28, R29;
30_encoding.md R60; 60_exceptions.md R134). -/

namespace Sys2Proof.Machine

/-- The code of an error classification (R60). -/
def errorCode : ErrCode → BitVec 8
  | .ok                    => 0x00
  | .illegalCmd            => 0x01
  | .notTested             => 0x02
  | .noKey                 => 0x03
  | .range                 => 0x04
  | .badLength             => 0x05
  | .randomnessUnavailable => 0x06
  | .foreignFormat         => 0x07
  | .corrupted             => 0x08
  | .integrityMismatch     => 0x09
  | .selftestFailure       => 0x0A

/-- STATUS.BUSY: the sequencer holds a command (R24, R33). -/
def State.busy (s : State) : Bool := s.latched.isSome

/-- The STATUS register (R24): from the top, bits 31:16 reserved, ERR, bits 7:4 reserved, ST_PASS, ST_DONE,
KEY_VALID, BUSY. -/
def State.statusWord (s : State) : Word32 :=
  (0 : BitVec 16) ++ errorCode s.err ++ (0 : BitVec 4) ++ BitVec.ofBool s.stPass ++ BitVec.ofBool s.stDone ++
    BitVec.ofBool s.keyValid ++ BitVec.ofBool s.busy

/-- The INT_STATUS register (R28): IGN in bit 1, DONE in bit 0. -/
def State.intStatusWord (s : State) : Word32 :=
  (0 : BitVec 30) ++ BitVec.ofBool s.intIgn ++ BitVec.ofBool s.intDone

/-- The INT_ENABLE register (R29): IGN_IE in bit 1, DONE_IE in bit 0. -/
def State.intEnableWord (s : State) : Word32 :=
  (0 : BitVec 30) ++ BitVec.ofBool s.ignIe ++ BitVec.ofBool s.doneIe

/-- A host write of `v` to INT_STATUS clears the bits where `v` has 1 (R28). -/
def State.clearIntStatus (v : Word32) (s : State) : State :=
  { s with intDone := s.intDone && !v.getLsbD 0, intIgn := s.intIgn && !v.getLsbD 1 }

/-- A host write of `v` to INT_ENABLE (R29). -/
def State.setIntEnable (v : Word32) (s : State) : State :=
  { s with doneIe := v.getLsbD 0, ignIe := v.getLsbD 1 }

/-- An ignored access sets INT_STATUS.IGN (R47). -/
def State.setIgn (s : State) : State := { s with intIgn := true }

/-- The interrupt output (R134). -/
def State.irq (s : State) : Bool := (s.intDone && s.doneIe) || (s.intIgn && s.ignIe)

end Sys2Proof.Machine
end

