-- ==== Sys2Proof/Machine/Operands.lean ====
section
/-! DEFINITION. The operands of a command (30_encoding.md R57, R58): the latched source offset, length and destination
offset as unsigned integers, the range check on them (20_memory.md R49), and the byte orders values are read and
written in (00_scope.md R14). -/

namespace Sys2Proof.Machine

/-- The input offset `L.src` (R58). -/
def Latched.srcOff (L : Latched) : Nat := L.src.toNat

/-- The input length `L.len` (R58). -/
def Latched.length (L : Latched) : Nat := L.len.toNat

/-- The output offset `L.dst` (R58). -/
def Latched.dstOff (L : Latched) : Nat := L.dst.toNat

/-- `ceil16(n)`, the least multiple of 16 that is at least `n` (R58). -/
def ceil16 (n : Nat) : Nat := 16 * ((n + 15) / 16)

/-- `inBounds(a, n)`: the range lies in the buffer, computed without wrapping (R49). -/
def inBounds (c : Params) (a n : Nat) : Bool := a + n ≤ c.bufBytes

/-- A command's input range `(L.src, L.len)` is in bounds (R49, R132 check 4). -/
def Latched.srcInBounds (c : Params) (L : Latched) : Bool := inBounds c L.srcOff L.length

/-- A command's output range `(L.dst, n_out)` is in bounds (R49, R132 check 8). -/
def Latched.dstInBounds (c : Params) (L : Latched) (nOut : Nat) : Bool := inBounds c L.dstOff nOut

/-- `zeros(n)` (R14). -/
def zeros (n : Nat) : List Byte := List.replicate n 0

/-- A little-endian integer from its bytes (R14, R45). -/
def leValue : List Byte → Nat
  | []      => 0
  | b :: bs => b.toNat + 256 * leValue bs

/-- The `w` low bytes of a 32-bit value, least significant first (R45). -/
def leBytes (w : Nat) (v : Word32) : List Byte := (List.range w).map fun i => v.extractLsb' (8 * i) 8

/-- `LE32` of four bytes (R14). -/
def le32 (b0 b1 b2 b3 : Byte) : Word32 := b3 ++ b2 ++ b1 ++ b0

/-- Byte `j` of a 32-bit word, `v[8j+7:8j]` (R13). -/
def wordByte (v : Word32) (j : Nat) : Byte := v.extractLsb' (8 * j) 8

/-- `BE64` of eight bytes (R14). -/
def be64 (bs : List Byte) : Word64 := bs.foldl (fun w b => (w <<< 8) ||| b.setWidth 64) 0

/-- `toBE64` (R14). -/
def toBE64 (v : Word64) : List Byte :=
  [v.extractLsb' 56 8, v.extractLsb' 48 8, v.extractLsb' 40 8, v.extractLsb' 32 8,
   v.extractLsb' 24 8, v.extractLsb' 16 8, v.extractLsb' 8 8, v.extractLsb' 0 8]

/-- `toBE128`: an integer as 16 bytes, most significant first (R68). -/
def toBE128 (n : Nat) : List Byte := (List.range 16).map fun i => BitVec.ofNat 8 (n >>> (8 * (15 - i)))

/-- The `n` bytes of a byte sequence as a fixed-size value; a sequence of exactly `n` bytes is read whole. -/
def bytesToVector (n : Nat) (bs : List Byte) : Vector Byte n := Vector.ofFn fun i => bs.getD i.val 0

end Sys2Proof.Machine
end

