-- ==== Sys2Proof/Machine/Ops.lean ====
section
/-! DEFINITION. The named operations every command and every host access is made of: the private buffer (20_memory.md
R43 to R50), the randomness source (60_exceptions.md R137), issue and completion of a command (45_selftest_and_control.md
R121, R122), ending a command with an error (60_exceptions.md R131), and reset (70_reset_and_hazards.md R141). The
block has no trap entry and no trap return (60_exceptions.md R135): ending a command with an error is all that an
exception is here. -/

namespace Sys2Proof.Machine

/-- The byte at an offset of the buffer, if something has written it since reset (R48). -/
def Memory.read : Memory → Nat → Option Byte
  | [], _ => none
  | (k, b) :: m, a => if a = k then some b else Memory.read m a

/-- Writes one byte, keeping the offsets strictly rising. -/
def Memory.write : Memory → Nat → Byte → Memory
  | [], a, v => [(a, v)]
  | (k, b) :: m, a, v =>
    if a < k then (a, v) :: (k, b) :: m
    else if a = k then (k, v) :: m
    else (k, b) :: Memory.write m a v

/-- Writes a byte sequence from an offset upwards. -/
def Memory.writeBytes : Memory → Nat → List Byte → Memory
  | m, _, [] => m
  | m, a, b :: bs => Memory.writeBytes (Memory.write m a b) (a + 1) bs

/-- The canonical form of a buffer: offsets strictly rising. -/
abbrev Memory.wf (m : Memory) : Prop := m.Pairwise fun x y => x.1 < y.1

/-- The byte a read of the buffer finds at an offset: what was last written there, else a draw of this read (R48). -/
def State.bufByte (s : State) (a : Nat) : Byte := (s.buf.read a).getD (Config.unwrittenByte s.bufReads a)

/-- `MemRead(a, n)` (R15): the `n` bytes from offset `a`. -/
def State.memRead (s : State) (a n : Nat) : List Byte := (List.range n).map fun i => s.bufByte (a + i)

/-- A command's whole input `MemRead(L.src, L.len)` (R50). -/
def State.input (s : State) (L : Latched) : List Byte := s.memRead L.srcOff L.length

/-- Counts a read of the buffer, so that the next read draws afresh for unwritten bytes (R48). -/
def State.noteRead (s : State) : State := { s with bufReads := s.bufReads + 1 }

/-- `MemWrite(a, n, v)` (R15): the bytes of `v` from offset `a`; the bytes it writes count as written (R46). -/
def State.memWrite (s : State) (a : Nat) (v : List Byte) : State := { s with buf := s.buf.writeBytes a v }

/-- The randomness source's answer to the next `TrngDraw()`: the next one the inputs give, else a free one (R137). -/
def State.trngAnswer (s : State) : TrngAnswer :=
  match s.trng with
  | a :: _ => a
  | []     => Config.trngFree s.trngDraws

/-- The state after one `TrngDraw()` (R137): the answer is used up. -/
def State.noteTrng (s : State) : State := { s with trng := s.trng.tail, trngDraws := s.trngDraws + 1 }

/-- Issue (R121): the command word and the operand registers are latched, and BUSY is set. -/
def State.issue (v : Word32) (s : State) : State :=
  { s with latched := some { cmd := v, src := s.srcAddr, len := s.srcLen, dst := s.dstAddr } }

/-- The common completion effects (R122): IDLE again, DONE set, ERR and DST_LEN overwritten, L discarded. -/
def State.complete (s : State) (code : ErrCode) (nOut : Nat) : State :=
  { s with latched := none, intDone := true, err := code, dstLen := BitVec.ofNat 32 nOut }

/-- A command that succeeds with `nOut` bytes of output (R122). -/
def State.succeed (s : State) (nOut : Nat) : State := s.complete .ok nOut

/-- `raise Error(code)` (R15, R131): the command ends with the code, DST_LEN is 0 and nothing else changes. -/
def State.raise (s : State) (code : ErrCode) : State := s.complete code 0

/-- An illegal command word completes with ILLEGAL_CMD and no other effect (R59). -/
def State.illegalCommand (s : State) : State := s.raise .illegalCmd

/-- Runs a command's rule on the latched command (R122). The Engine has no step without one. -/
def runCommand (rule : Latched → State → State) (s : State) : Host.Outcome State Fault Refusal :=
  match s.latched with
  | some L => .next (rule L s)
  | none   => .fault .engineIdle

/-- Reset (R141, R142): the block's own state takes its reset values, a running command is lost without effect, and the
buffer is unwritten. The parameters are hardwired, and what lies outside the block is not touched: the inputs still to
come, the randomness source, the numbering of the draws, and the host's record of responses and bus errors. -/
def State.takeReset (s : State) : State :=
  { State.reset with
    cfg := s.cfg, inputs := s.inputs, trng := s.trng, trngDraws := s.trngDraws, bufReads := s.bufReads,
    response := s.response, busErrors := s.busErrors }

end Sys2Proof.Machine
end

