-- ==== Sys2Proof/Machine/HashEngine.lean ====
section
/-! DEFINITION. The hash engine (40_hash_engine.md): SHA-512, and the HASH command. -/

namespace Sys2Proof.Machine

/-- The round constants `Kh[0..79]` (R66). -/
def roundConstants : List Word64 := [
    0x428A2F98D728AE22, 0x7137449123EF65CD, 0xB5C0FBCFEC4D3B2F, 0xE9B5DBA58189DBBC,
    0x3956C25BF348B538, 0x59F111F1B605D019, 0x923F82A4AF194F9B, 0xAB1C5ED5DA6D8118,
    0xD807AA98A3030242, 0x12835B0145706FBE, 0x243185BE4EE4B28C, 0x550C7DC3D5FFB4E2,
    0x72BE5D74F27B896F, 0x80DEB1FE3B1696B1, 0x9BDC06A725C71235, 0xC19BF174CF692694,
    0xE49B69C19EF14AD2, 0xEFBE4786384F25E3, 0x0FC19DC68B8CD5B5, 0x240CA1CC77AC9C65,
    0x2DE92C6F592B0275, 0x4A7484AA6EA6E483, 0x5CB0A9DCBD41FBD4, 0x76F988DA831153B5,
    0x983E5152EE66DFAB, 0xA831C66D2DB43210, 0xB00327C898FB213F, 0xBF597FC7BEEF0EE4,
    0xC6E00BF33DA88FC2, 0xD5A79147930AA725, 0x06CA6351E003826F, 0x142929670A0E6E70,
    0x27B70A8546D22FFC, 0x2E1B21385C26C926, 0x4D2C6DFC5AC42AED, 0x53380D139D95B3DF,
    0x650A73548BAF63DE, 0x766A0ABB3C77B2A8, 0x81C2C92E47EDAEE6, 0x92722C851482353B,
    0xA2BFE8A14CF10364, 0xA81A664BBC423001, 0xC24B8B70D0F89791, 0xC76C51A30654BE30,
    0xD192E819D6EF5218, 0xD69906245565A910, 0xF40E35855771202A, 0x106AA07032BBD1B8,
    0x19A4C116B8D2D0C8, 0x1E376C085141AB53, 0x2748774CDF8EEB99, 0x34B0BCB5E19B48A8,
    0x391C0CB3C5C95A63, 0x4ED8AA4AE3418ACB, 0x5B9CCA4F7763E373, 0x682E6FF3D6B2B8A3,
    0x748F82EE5DEFB2FC, 0x78A5636F43172F60, 0x84C87814A1F0AB72, 0x8CC702081A6439EC,
    0x90BEFFFA23631E28, 0xA4506CEBDE82BDE9, 0xBEF9A3F7B2C67915, 0xC67178F2E372532B,
    0xCA273ECEEA26619C, 0xD186B8C721C0C207, 0xEADA7DD6CDE0EB1E, 0xF57D4F7FEE6ED178,
    0x06F067AA72176FBA, 0x0A637DC5A2C898A6, 0x113F9804BEF90DAE, 0x1B710B35131C471B,
    0x28DB77F523047D84, 0x32CAAB7B40C72493, 0x3C9EBE0A15C9BEBC, 0x431D67C49C100D4C,
    0x4CC5D4BECB3E42B6, 0x597F299CFC657E2A, 0x5FCB6FAB3AD6FAEC, 0x6C44198C4A475817]

/-- `Ch` (R67). -/
def choose (x y z : Word64) : Word64 := (x &&& y) ^^^ (~~~x &&& z)

/-- `Maj` (R67). -/
def majority (x y z : Word64) : Word64 := (x &&& y) ^^^ (x &&& z) ^^^ (y &&& z)

/-- `Sigma0` (R67). -/
def bigSigma0 (x : Word64) : Word64 := x.rotateRight 28 ^^^ x.rotateRight 34 ^^^ x.rotateRight 39

/-- `Sigma1` (R67). -/
def bigSigma1 (x : Word64) : Word64 := x.rotateRight 14 ^^^ x.rotateRight 18 ^^^ x.rotateRight 41

/-- `sigma0` (R67). -/
def smallSigma0 (x : Word64) : Word64 := x.rotateRight 1 ^^^ x.rotateRight 8 ^^^ (x >>> 7)

/-- `sigma1` (R67). -/
def smallSigma1 (x : Word64) : Word64 := x.rotateRight 19 ^^^ x.rotateRight 61 ^^^ (x >>> 6)

/-- The number `z` of zero bytes in the padding of an `n`-byte message: `(111 - n) mod 128` (R68). -/
def padZeros (n : Nat) : Nat := (111 + (128 - n % 128)) % 128

/-- `Pad(X)` (R68). -/
def pad (x : List Byte) : List Byte := x ++ [0x80] ++ zeros (padZeros x.length) ++ toBE128 (8 * x.length)

/-- The first `n` pieces of `k` bytes of a byte sequence. -/
def pieces (k : Nat) : (n : Nat) → List Byte → List (List Byte)
  | 0, _      => []
  | n + 1, bs => bs.take k :: pieces k n (bs.drop k)

/-- One more word of the message schedule (R71): `W[t]` from the words before it, `t` being how many there are. -/
def scheduleNext (w : List Word64) : Word64 :=
  let t := w.length
  smallSigma1 (w.getD (t - 2) 0) + w.getD (t - 7) 0 + smallSigma0 (w.getD (t - 15) 0) + w.getD (t - 16) 0

/-- `n` more words of the message schedule (R71). -/
def scheduleExtend : (n : Nat) → List Word64 → List Word64
  | 0, w     => w
  | n + 1, w => scheduleExtend n (w ++ [scheduleNext w])

/-- The message schedule `W[0..79]` of one 128-byte block (R70, R71). -/
def messageSchedule (block : List Byte) : List Word64 :=
  scheduleExtend 64 ((pieces 8 16 block).map be64)

/-- Eight 64-bit words: the running state `Hs[0..7]`, or the working registers a to h (R37). -/
structure HashRegs where
  a : Word64
  b : Word64
  c : Word64
  d : Word64
  e : Word64
  f : Word64
  g : Word64
  h : Word64
deriving DecidableEq, Repr

/-- The initial state `IV[0..7]` (R65). -/
def initialHash : HashRegs where
  a := 0x6A09E667F3BCC908
  b := 0xBB67AE8584CAA73B
  c := 0x3C6EF372FE94F82B
  d := 0xA54FF53A5F1D36F1
  e := 0x510E527FADE682D1
  f := 0x9B05688C2B3E6C1F
  g := 0x1F83D9ABFB41BD6B
  h := 0x5BE0CD19137E2179

/-- One round of the compression (R72), with the round constant `k` and the schedule word `w`. -/
def hashRound (v : HashRegs) (k w : Word64) : HashRegs :=
  let t1 := v.h + bigSigma1 v.e + choose v.e v.f v.g + k + w
  let t2 := bigSigma0 v.a + majority v.a v.b v.c
  { a := t1 + t2, b := v.a, c := v.b, d := v.c, e := v.d + t1, f := v.e, g := v.f, h := v.g }

/-- The eighty rounds on one block, from the running state (R72). -/
def hashRounds (hs : HashRegs) (block : List Byte) : HashRegs :=
  (List.zip roundConstants (messageSchedule block)).foldl (fun v kw => hashRound v kw.1 kw.2) hs

/-- Compression of one block (R72): the working registers after the rounds are added to the running state. -/
def compress (hs : HashRegs) (block : List Byte) : HashRegs :=
  let v := hashRounds hs block
  { a := hs.a + v.a, b := hs.b + v.b, c := hs.c + v.c, d := hs.d + v.d,
    e := hs.e + v.e, f := hs.f + v.f, g := hs.g + v.g, h := hs.h + v.h }

/-- The eight final words, most significant byte first (R73). -/
def HashRegs.bytes (v : HashRegs) : List Byte :=
  toBE64 v.a ++ toBE64 v.b ++ toBE64 v.c ++ toBE64 v.d ++ toBE64 v.e ++ toBE64 v.f ++ toBE64 v.g ++ toBE64 v.h

/-- `Hash(X)` (R73), total on every byte sequence. -/
def hashOf (x : List Byte) : Digest :=
  let p := pad x
  let v := (pieces 128 (p.length / 128) p).foldl compress initialHash
  ⟨v.bytes.toArray, rfl⟩

/-- HASH on the latched command (R74). -/
def hashRule (L : Latched) (s : State) : State :=
  if !s.stPass then s.raise .notTested
  else if !L.srcInBounds s.cfg then s.raise .range
  else if !L.dstInBounds s.cfg 64 then s.raise .range
  else (s.noteRead.memWrite L.dstOff (hashOf (s.input L)).toList).succeed 64

/-- HASH (R74). -/
def execHash (s : State) : Host.Outcome State Fault Refusal := runCommand hashRule s

end Sys2Proof.Machine
end

