-- ==== Sys2Proof/Machine/KeyVault.lean ====
section
/-! DEFINITION. The key enclave (43_key_enclave.md): the key derivation, the obfuscated vault, and the SET_PASSWORD and
INVALIDATE commands. -/

namespace Sys2Proof.Machine

/-- `n` re-hashes of a digest, the key stretching (R100). -/
def stretch : (n : Nat) → Digest → Digest
  | 0, d     => d
  | n + 1, d => stretch n (hashOf d.toList)

/-- The two 32-byte halves of a digest added byte by byte, modulo 256 (R100). -/
def foldDigest (d : Digest) : Key := Vector.ofFn fun j : Fin 32 => d[j.val] + d[j.val + 32]

/-- `DeriveKey(pw)` with `rounds` re-hashes (R100). -/
def deriveKey (rounds : Nat) (pw : List Byte) : Key := foldDigest (stretch rounds (hashOf pw))

/-- The rotation amount of byte `j` of the vault (R102). -/
def rotAmount (j : Nat) : Nat := j % 7 + 1

/-- `Obf(k)` (R102). -/
def obfuscate (k : Key) : Key := Vector.ofFn fun j : Fin 32 => (k[j.val]).rotateLeft (rotAmount j)

/-- `Deobf(v)` (R102). -/
def deobfuscate (v : Key) : Key := Vector.ofFn fun j : Fin 32 => (v[j.val]).rotateRight (rotAmount j)

/-- `GetKey(vault)` (R103). -/
def getKey (vault : Key) : Key := deobfuscate vault

/-- `zeros(32)`, the vault's contents in state INVALID (R105). -/
def zeroVault : Key := Vector.replicate 32 0

/-- Both parts of the vault written in one step (R35, R105). -/
def State.setVault (s : State) (v : Key) (valid : Bool) : State := { s with vault := v, keyValid := valid }

/-- SET_PASSWORD on the latched command (R106). -/
def setPasswordRule (L : Latched) (s : State) : State :=
  if !s.stPass then s.raise .notTested
  else if !L.srcInBounds s.cfg then s.raise .range
  else (s.noteRead.setVault (obfuscate (deriveKey s.cfg.stretchRounds.toNat (s.input L))) true).succeed 0

/-- INVALIDATE on the latched command (R107). -/
def invalidateRule (_ : Latched) (s : State) : State := (s.setVault zeroVault false).succeed 0

/-- SET_PASSWORD (R106). -/
def execSetPassword (s : State) : Host.Outcome State Fault Refusal := runCommand setPasswordRule s

/-- INVALIDATE (R107). -/
def execInvalidate (s : State) : Host.Outcome State Fault Refusal := runCommand invalidateRule s

end Sys2Proof.Machine
end

