-- ==== Sys2Proof/Machine/BlockCipher.lean ====
section
/-! DEFINITION. The block cipher core (41_block_cipher.md): Twofish with a 256-bit key, and the ECB_ENCRYPT and
ECB_DECRYPT commands. -/

namespace Sys2Proof.Machine

/-- `gfmul_p(a, b)` by the procedure of R16: `n` bits of `b` are left, `r` is the sum so far, and `a` is doubled and
reduced by `p` after each. -/
def gfmulLoop (p : Nat) : (n : Nat) → (a b r : Nat) → Nat
  | 0, _, _, r => r
  | n + 1, a, b, r =>
    let r' := bif b.testBit 0 then r ^^^ a else r
    let a' := bif (2 * a).testBit 8 then (2 * a) ^^^ p else 2 * a
    gfmulLoop p n a' (b / 2) r'

/-- `gfmul_p(a, b)`, the product of two bytes modulo the polynomial `p` (R16). -/
def gfmul (p : Nat) (a b : Byte) : Byte := BitVec.ofNat 8 (gfmulLoop p 8 a.toNat b.toNat 0)

/-- The four 4-bit tables of a fixed permutation (R78); each is written as its sixteen entries from left to right. -/
structure NibbleTables where
  t0 : BitVec 64
  t1 : BitVec 64
  t2 : BitVec 64
  t3 : BitVec 64
deriving DecidableEq, Repr

/-- The tables of q0 (R78). -/
def q0Nibbles : NibbleTables where
  t0 := 0x817D6F320B59ECA4
  t1 := 0xECB81235F4A6709D
  t2 := 0xBA5E6D90C8F32471
  t3 := 0xD7F4126E9B3085CA

/-- The tables of q1 (R78). -/
def q1Nibbles : NibbleTables where
  t0 := 0x28BDF76E31940AC5
  t1 := 0x1E2B4C376DA5F908
  t2 := 0x4C75169A0ED82B3F
  t3 := 0xB951C3DE647F208A

/-- Entry `x` of a 4-bit table (R78). -/
def nibbleAt (t : BitVec 64) (x : Nibble) : Nibble := t.extractLsb' (4 * (15 - x.toNat)) 4

/-- A fixed permutation built from its 4-bit tables (R78). -/
def permuteByTables (q : NibbleTables) (x : Byte) : Byte :=
  let a0 : Nibble := x.extractLsb' 4 4
  let b0 : Nibble := x.extractLsb' 0 4
  let a1 := a0 ^^^ b0
  let b1 := a0 ^^^ b0.rotateRight 1 ^^^ (8 * a0)
  let a2 := nibbleAt q.t0 a1
  let b2 := nibbleAt q.t1 b1
  let a3 := a2 ^^^ b2
  let b3 := a2 ^^^ b2.rotateRight 1 ^^^ (8 * a2)
  let a4 := nibbleAt q.t2 a3
  let b4 := nibbleAt q.t3 b3
  b4 ++ a4

/-- The table of q0 (R79): one row for each high nibble, its sixteen entries from left to right. -/
def q0Rows : List (BitVec 128) :=
  [0xA967B3E804FDA3769A928078E4DDD138,
   0x0DC6359818F7EC6C43753726FA139448,
   0xF2D08B308454DF23195B3D59F3AEA282,
   0x6301832ED9519B7CA6EBA5BE160CE361,
   0xC08C3AF5732C250BBB4E896B536AB4F1,
   0xE1E6BD45E2F4B666CC950356D41C1ED7,
   0xFBC38EB5E9CFBFBAEA7739AF33C96271,
   0x817909AD24CDF9D8E5C5B94D440886E7,
   0xA11DAAED0670B2D2417BA01131C22790,
   0x20F660FF965CB1AB9E9C521B5F930AEF,
   0x918549EE2D4F8F3B47876D46D63E6964,
   0x2ACECB2FFC97057AAC7FD51A4B0EA75A,
   0x28143F29883C4C02B8DAB017551F8A7D,
   0x57C78D74B7C49F727E15221258079934,
   0x6E50DE6865BCDBF8C8A82B40DCFE32A4,
   0xCA1021F0D35D0F006F9D36424A5EC1E0]

/-- The table of q1 (R79), laid out as that of q0. -/
def q1Rows : List (BitVec 128) :=
  [0x75F3C6F4DB7BFBC84AD3E66B457DE84B,
   0xD632D8FD3771F1E1300FF81B87FA063F,
   0x5EBAAE5B8A00BC9D6DC1B10E805DD2D5,
   0xA0840714B5902CA3B2734C5492743651,
   0x38B0BD5AFC6062966C42F7107C28278C,
   0x13959CC724463B70CAE385CB11D093B8,
   0xA68320FF9F77C3CC036F08BF40E72BE2,
   0x790CAA82413AEAB9E49AA4977EDA7A17,
   0x6694A11D3DF0DEB30B72A71CEFD1533E,
   0x8F33265FEC762A498188EE21C41AEBD9,
   0xC53999CDAD318B011823DD1F4E2DF948,
   0x4FF2658E785C58198DE59857677F0564,
   0xAF63B6FEF5B73CA5CEE96844E04D4369,
   0x292EAC1559A80A9E6E47DF34356ACFDC,
   0x22C9C09B89D4EDAB12A20D52BB022FA9,
   0xD7611EB45004F6C2162586565509BE91]

/-- The entry of a table of R79 for the byte `x`: row `x / 16`, column `x mod 16`. -/
def byteAt (rows : List (BitVec 128)) (x : Byte) : Byte :=
  (rows.getD (x.toNat / 16) 0).extractLsb' (8 * (15 - x.toNat % 16)) 8

/-- The fixed permutation q0 (R79; `permuteByTables` is the construction of R78). -/
def q0 (x : Byte) : Byte := byteAt q0Rows x

/-- The fixed permutation q1 (R79; `permuteByTables` is the construction of R78). -/
def q1 (x : Byte) : Byte := byteAt q1Rows x

/-- One row of a matrix times a column of bytes, over the field of the polynomial `p` (R80, R81). -/
def matrixRow (p : Nat) (row ys : List Byte) : Byte := (List.zipWith (gfmul p) row ys).foldl (· ^^^ ·) 0

/-- `MdsMul` (R80). -/
def mdsMul (y0 y1 y2 y3 : Byte) : Word32 :=
  let ys := [y0, y1, y2, y3]
  le32 (matrixRow 0x169 [0x01, 0xEF, 0x5B, 0x5B] ys) (matrixRow 0x169 [0x5B, 0xEF, 0xEF, 0x01] ys)
    (matrixRow 0x169 [0xEF, 0x5B, 0x01, 0xEF] ys) (matrixRow 0x169 [0xEF, 0x01, 0xEF, 0x5B] ys)

/-- The Reed-Solomon product of eight key bytes, as a word (R81, R83). -/
def rsMul (ms : List Byte) : Word32 :=
  le32 (matrixRow 0x14D [0x01, 0xA4, 0x55, 0x87, 0x5A, 0x58, 0xDB, 0x9E] ms)
    (matrixRow 0x14D [0xA4, 0x56, 0x82, 0xF3, 0x1E, 0xC6, 0x68, 0xE5] ms)
    (matrixRow 0x14D [0x02, 0xA1, 0xFC, 0xC1, 0x47, 0xAE, 0x3D, 0x19] ms)
    (matrixRow 0x14D [0xA4, 0x55, 0x87, 0x5A, 0x58, 0xDB, 0x9E, 0x03] ms)

/-- Four 32-bit words: the list `L` of h (R82), the S-box words (R83), or the round state `Rw[0..3]` (R38). -/
structure Quad where
  w0 : Word32
  w1 : Word32
  w2 : Word32
  w3 : Word32
deriving DecidableEq, Repr

/-- The function h (R82). -/
def tfH (x : Word32) (l : Quad) : Word32 :=
  let y0 := q1 (wordByte x 0) ^^^ wordByte l.w3 0
  let y1 := q0 (wordByte x 1) ^^^ wordByte l.w3 1
  let y2 := q0 (wordByte x 2) ^^^ wordByte l.w3 2
  let y3 := q1 (wordByte x 3) ^^^ wordByte l.w3 3
  let z0 := q1 y0 ^^^ wordByte l.w2 0
  let z1 := q1 y1 ^^^ wordByte l.w2 1
  let z2 := q0 y2 ^^^ wordByte l.w2 2
  let z3 := q0 y3 ^^^ wordByte l.w2 3
  mdsMul (q1 (q0 (q0 z0 ^^^ wordByte l.w1 0) ^^^ wordByte l.w0 0))
    (q0 (q0 (q1 z1 ^^^ wordByte l.w1 1) ^^^ wordByte l.w0 1))
    (q1 (q1 (q0 z2 ^^^ wordByte l.w1 2) ^^^ wordByte l.w0 2))
    (q0 (q1 (q1 z3 ^^^ wordByte l.w1 3) ^^^ wordByte l.w0 3))

/-- The expanded key: the subkeys `K[0..39]` and the S-box words `S[0..3]` (R38, R83). -/
structure KeySchedule where
  k : Vector Word32 40
  s : Quad
deriving DecidableEq, Repr

/-- The key word `Mw[i]` (R83). -/
def keyWord (key : Key) (i : Fin 8) : Word32 :=
  le32 (key[4 * i.val]'(by omega)) (key[4 * i.val + 1]'(by omega)) (key[4 * i.val + 2]'(by omega))
    (key[4 * i.val + 3]'(by omega))

/-- The word `Sv[i]` of the Reed-Solomon step (R83). -/
def sBoxWord (key : Key) (i : Nat) : Word32 := rsMul ((key.toList.drop (8 * i)).take 8)

/-- The subkeys `K[2i]` and `K[2i+1]` (R83), with `rho = 0x01010101`. -/
def subkeyPair (me mo : Quad) (i : Nat) : Word32 × Word32 :=
  let a := tfH (BitVec.ofNat 32 (2 * i * 0x01010101)) me
  let b := (tfH (BitVec.ofNat 32 ((2 * i + 1) * 0x01010101)) mo).rotateLeft 8
  (a + b, (a + b + b).rotateLeft 9)

/-- `KeySchedule(key)` (R83). -/
def keySchedule (key : Key) : KeySchedule :=
  let me : Quad := ⟨keyWord key 0, keyWord key 2, keyWord key 4, keyWord key 6⟩
  let mo : Quad := ⟨keyWord key 1, keyWord key 3, keyWord key 5, keyWord key 7⟩
  { k := ⟨((List.range 20).flatMap fun i => [(subkeyPair me mo i).1, (subkeyPair me mo i).2]).toArray, rfl⟩
    s := ⟨sBoxWord key 3, sBoxWord key 2, sBoxWord key 1, sBoxWord key 0⟩ }

/-- The round function F of round `r`, giving `F0` and `F1`, with `g(X) = h(X, S)` (R84, R85). -/
def roundF (ks : KeySchedule) (x0 x1 : Word32) (r : Fin 16) : Word32 × Word32 :=
  let t0 := tfH x0 ks.s
  let t1 := tfH (x1.rotateLeft 8) ks.s
  (t0 + t1 + ks.k[2 * r.val + 8], t0 + t1 + t1 + ks.k[2 * r.val + 9])

/-- A block as four little-endian words (R77). -/
def blockWords (b : Block) : Quad where
  w0 := le32 b[0] b[1] b[2] b[3]
  w1 := le32 b[4] b[5] b[6] b[7]
  w2 := le32 b[8] b[9] b[10] b[11]
  w3 := le32 b[12] b[13] b[14] b[15]

/-- Four words as a block, little-endian (R77). -/
def wordsBlock (v : Quad) : Block :=
  #v[wordByte v.w0 0, wordByte v.w0 1, wordByte v.w0 2, wordByte v.w0 3,
     wordByte v.w1 0, wordByte v.w1 1, wordByte v.w1 2, wordByte v.w1 3,
     wordByte v.w2 0, wordByte v.w2 1, wordByte v.w2 2, wordByte v.w2 3,
     wordByte v.w3 0, wordByte v.w3 1, wordByte v.w3 2, wordByte v.w3 3]

/-- One round of encryption, with the half swap (R86). -/
def encRound (ks : KeySchedule) (v : Quad) (r : Fin 16) : Quad :=
  let f := roundF ks v.w0 v.w1 r
  ⟨(v.w2 ^^^ f.1).rotateRight 1, v.w3.rotateLeft 1 ^^^ f.2, v.w0, v.w1⟩

/-- One round of decryption (R87). -/
def decRound (ks : KeySchedule) (v : Quad) (r : Fin 16) : Quad :=
  let f := roundF ks v.w2 v.w3 r
  ⟨v.w2, v.w3, v.w0.rotateLeft 1 ^^^ f.1, (v.w1 ^^^ f.2).rotateRight 1⟩

/-- Input whitening with `K[0..3]` (R86); decryption undoes it last (R87). -/
def whitenIn (ks : KeySchedule) (v : Quad) : Quad :=
  ⟨v.w0 ^^^ ks.k[0], v.w1 ^^^ ks.k[1], v.w2 ^^^ ks.k[2], v.w3 ^^^ ks.k[3]⟩

/-- Output whitening with `K[4..7]`, the last swap undone (R86). -/
def whitenOut (ks : KeySchedule) (v : Quad) : Quad :=
  ⟨v.w2 ^^^ ks.k[4], v.w3 ^^^ ks.k[5], v.w0 ^^^ ks.k[6], v.w1 ^^^ ks.k[7]⟩

/-- The first step of decryption: the output whitening undone (R87). -/
def unwhitenOut (ks : KeySchedule) (c : Quad) : Quad :=
  ⟨c.w2 ^^^ ks.k[6], c.w3 ^^^ ks.k[7], c.w0 ^^^ ks.k[4], c.w1 ^^^ ks.k[5]⟩

/-- `TfEncrypt(ks, P)` (R86). -/
def tfEncrypt (ks : KeySchedule) (p : Block) : Block :=
  wordsBlock (whitenOut ks ((List.finRange 16).foldl (encRound ks) (whitenIn ks (blockWords p))))

/-- `TfDecrypt(ks, C)` (R87). -/
def tfDecrypt (ks : KeySchedule) (c : Block) : Block :=
  wordsBlock (whitenIn ks ((List.finRange 16).reverse.foldl (decRound ks) (unwhitenOut ks (blockWords c))))

/-- The key schedule of the vault's key, computed once at the start of a keyed command (R38, R103). -/
def State.vaultSchedule (s : State) : KeySchedule := keySchedule (getKey s.vault)

/-- ECB_ENCRYPT on the latched command (R89). -/
def ecbEncryptRule (L : Latched) (s : State) : State :=
  if !s.stPass then s.raise .notTested
  else if !s.keyValid then s.raise .noKey
  else if !L.srcInBounds s.cfg then s.raise .range
  else if L.length ≠ 16 then s.raise .badLength
  else if !L.dstInBounds s.cfg 16 then s.raise .range
  else (s.noteRead.memWrite L.dstOff
    (tfEncrypt s.vaultSchedule (bytesToVector 16 (s.memRead L.srcOff 16))).toList).succeed 16

/-- ECB_DECRYPT on the latched command (R90). -/
def ecbDecryptRule (L : Latched) (s : State) : State :=
  if !s.stPass then s.raise .notTested
  else if !s.keyValid then s.raise .noKey
  else if !L.srcInBounds s.cfg then s.raise .range
  else if L.length ≠ 16 then s.raise .badLength
  else if !L.dstInBounds s.cfg 16 then s.raise .range
  else (s.noteRead.memWrite L.dstOff
    (tfDecrypt s.vaultSchedule (bytesToVector 16 (s.memRead L.srcOff 16))).toList).succeed 16

/-- ECB_ENCRYPT (R89). -/
def execEcbEncrypt (s : State) : Host.Outcome State Fault Refusal := runCommand ecbEncryptRule s

/-- ECB_DECRYPT (R90). -/
def execEcbDecrypt (s : State) : Host.Outcome State Fault Refusal := runCommand ecbDecryptRule s

end Sys2Proof.Machine
end

