-- ==== Sys2Proof/Machine/ChainedMode.lean ====
section
/-! DEFINITION. The chained mode wrapper (42_chained_mode.md): CBC with a zero IV and zero-extension padding, and the
CBC_ENCRYPT and CBC_DECRYPT commands. -/

namespace Sys2Proof.Machine

/-- `IV0 = zeros(16)` (R92). -/
def zeroIv : Block := Vector.replicate 16 0

/-- `ZeroExt(X)` (R93). -/
def zeroExt (x : List Byte) : List Byte := x ++ zeros (ceil16 x.length - x.length)

/-- The first `n` blocks of a byte sequence (R94, R95). -/
def blocksOf (n : Nat) (x : List Byte) : List Block := (pieces 16 n x).map (bytesToVector 16)

/-- The bytes of a sequence of blocks. -/
def blockBytes (bs : List Block) : List Byte := bs.flatMap Vector.toList

/-- Bytewise exclusive or of two blocks (R94). -/
def xorBlock (a b : Block) : Block := Vector.zipWith (· ^^^ ·) a b

/-- The chain of R94 over blocks, after the ciphertext block `prev`. -/
def cbcEncBlocks (ks : KeySchedule) : (prev : Block) → List Block → List Block
  | _, []         => []
  | prev, p :: ps =>
    let c := tfEncrypt ks (xorBlock p prev)
    c :: cbcEncBlocks ks c ps

/-- The chain of R95 over blocks, after the ciphertext block `prev`. -/
def cbcDecBlocks (ks : KeySchedule) : (prev : Block) → List Block → List Block
  | _, []         => []
  | prev, c :: cs => xorBlock (tfDecrypt ks c) prev :: cbcDecBlocks ks c cs

/-- `CbcEnc(ks, X)` (R94). -/
def cbcEnc (ks : KeySchedule) (x : List Byte) : List Byte :=
  blockBytes (cbcEncBlocks ks zeroIv (blocksOf (ceil16 x.length / 16) (zeroExt x)))

/-- `CbcDec(ks, Y)` (R95), for a whole number of blocks. -/
def cbcDec (ks : KeySchedule) (y : List Byte) : List Byte :=
  blockBytes (cbcDecBlocks ks zeroIv (blocksOf (y.length / 16) y))

/-- CBC_ENCRYPT on the latched command (R97). -/
def cbcEncryptRule (L : Latched) (s : State) : State :=
  let nOut := ceil16 L.length
  if !s.stPass then s.raise .notTested
  else if !s.keyValid then s.raise .noKey
  else if !L.srcInBounds s.cfg then s.raise .range
  else if !L.dstInBounds s.cfg nOut then s.raise .range
  else (s.noteRead.memWrite L.dstOff (cbcEnc s.vaultSchedule (s.input L))).succeed nOut

/-- CBC_DECRYPT on the latched command (R98). -/
def cbcDecryptRule (L : Latched) (s : State) : State :=
  if !s.stPass then s.raise .notTested
  else if !s.keyValid then s.raise .noKey
  else if !L.srcInBounds s.cfg then s.raise .range
  else if L.length % 16 ≠ 0 then s.raise .badLength
  else if !L.dstInBounds s.cfg L.length then s.raise .range
  else (s.noteRead.memWrite L.dstOff (cbcDec s.vaultSchedule (s.input L))).succeed L.length

/-- CBC_ENCRYPT (R97). -/
def execCbcEncrypt (s : State) : Host.Outcome State Fault Refusal := runCommand cbcEncryptRule s

/-- CBC_DECRYPT (R98). -/
def execCbcDecrypt (s : State) : Host.Outcome State Fault Refusal := runCommand cbcDecryptRule s

end Sys2Proof.Machine
end

