-- ==== Sys2Proof/Machine/PayloadFraming.lean ====
section
/-! DEFINITION. The payload framing control (44_payload_framing.md), and the PAYLOAD_ENCRYPT and PAYLOAD_DECRYPT
commands. -/

namespace Sys2Proof.Machine

/-- The payload of `X = token ‖ plaintext`: `MARKER ‖ Hash(X) ‖ CbcEnc(ks, X)` (R110, R113). -/
def payloadOf (marker : List Byte) (ks : KeySchedule) (x : List Byte) : List Byte :=
  marker ++ (hashOf x).toList ++ cbcEnc ks x

/-- The length of the payload of an `n`-byte plaintext, `n > 0`, under a marker of `m` bytes (R113). -/
def payloadLength (m n : Nat) : Nat := m + 64 + ceil16 (16 + n)

/-- The search of R116 over the `k` candidate lengths from `n` downwards. -/
def resolveFrom (x : List Byte) (d : Digest) : (k n : Nat) → Option Nat
  | 0, _     => none
  | k + 1, n =>
    if x.drop n ≠ zeros (x.length - n) then none
    else if hashOf (x.take n) = d then some n
    else resolveFrom x d k (n - 1)

/-- `ResolvePadding(X, d)` (R116): the candidates are the sixteen lengths from `Lc` down to `Lc - 15`. -/
def resolvePadding (x : List Byte) (d : Digest) : Option Nat := resolveFrom x d 16 x.length

/-- The payload begins with the marker (R117). -/
def hasMarker (marker p : List Byte) : Bool := marker.length ≤ p.length && p.take marker.length == marker

/-- The stored digest `P[M..M+64)` of a payload (R117). -/
def storedDigest (m : Nat) (p : List Byte) : Digest := bytesToVector 64 (p.drop m)

/-- The ciphertext region `P[M+64..)` of a payload (R117). -/
def cipherRegion (m : Nat) (p : List Byte) : List Byte := p.drop (m + 64)

/-- PAYLOAD_ENCRYPT of a non-empty plaintext once every check has passed (R113): the token is drawn, and the payload is
written where there is one. -/
def sealPayload (L : Latched) (s : State) : State :=
  match s.trngAnswer with
  | .unavailable => s.noteTrng.raise .randomnessUnavailable
  | .bytes t =>
    (s.noteTrng.noteRead.memWrite L.dstOff (payloadOf s.cfg.marker s.vaultSchedule (t.toList ++ s.input L))).succeed
      (payloadLength s.cfg.markerLen L.length)

/-- PAYLOAD_ENCRYPT on the latched command (R113). -/
def payloadEncryptRule (L : Latched) (s : State) : State :=
  if !s.stPass then s.raise .notTested
  else if !s.keyValid then s.raise .noKey
  else if !L.srcInBounds s.cfg then s.raise .range
  else if L.length = 0 then
    if !L.dstInBounds s.cfg s.cfg.markerLen then s.raise .range
    else (s.memWrite L.dstOff s.cfg.marker).succeed s.cfg.markerLen
  else if !L.dstInBounds s.cfg (payloadLength s.cfg.markerLen L.length) then s.raise .range
  else sealPayload L s

/-- PAYLOAD_DECRYPT of a payload `p` that is long enough and whole (R117): it is decrypted and verified, and the text is
written where the digest matches. -/
def openPayload (L : Latched) (p : List Byte) (s : State) : State :=
  let m := s.cfg.markerLen
  let x := cbcDec s.vaultSchedule (cipherRegion m p)
  match resolvePadding x (storedDigest m p) with
  | none   => s.raise .integrityMismatch
  | some r => (s.memWrite L.dstOff ((x.take r).drop 16)).succeed (r - 16)

/-- PAYLOAD_DECRYPT of the input `p` (R117, R115): the checks on its marker and its length, then on the output range. -/
def parsePayload (L : Latched) (p : List Byte) (s : State) : State :=
  let m := s.cfg.markerLen
  if !hasMarker s.cfg.marker p then s.raise .foreignFormat
  else if L.length = m then
    if !L.dstInBounds s.cfg 0 then s.raise .range else s.succeed 0
  else if L.length < m + 81 then s.raise .corrupted
  else if (L.length - m - 64) % 16 ≠ 0 then s.raise .corrupted
  else if !L.dstInBounds s.cfg (L.length - m - 64 - 16) then s.raise .range
  else openPayload L p s

/-- PAYLOAD_DECRYPT on the latched command (R117). -/
def payloadDecryptRule (L : Latched) (s : State) : State :=
  if !s.stPass then s.raise .notTested
  else if !s.keyValid then s.raise .noKey
  else if !L.srcInBounds s.cfg then s.raise .range
  else parsePayload L (s.input L) s.noteRead

/-- PAYLOAD_ENCRYPT (R113). -/
def execPayloadEncrypt (s : State) : Host.Outcome State Fault Refusal := runCommand payloadEncryptRule s

/-- PAYLOAD_DECRYPT (R117). -/
def execPayloadDecrypt (s : State) : Host.Outcome State Fault Refusal := runCommand payloadDecryptRule s

end Sys2Proof.Machine
end

