-- ==== Sys2Proof/Machine/SelfTest.lean ====
section
/-! DEFINITION. The self-test and the NOP command (45_selftest_and_control.md). -/

namespace Sys2Proof.Machine

/-- `ST_MSG`, the ASCII bytes of "The quick brown fox jumps over the lazy dog" (R127). -/
def selftestMessage : List Byte :=
  [0x54, 0x68, 0x65, 0x20, 0x71, 0x75, 0x69, 0x63, 0x6B, 0x20, 0x62, 0x72, 0x6F, 0x77, 0x6E, 0x20,
   0x66, 0x6F, 0x78, 0x20, 0x6A, 0x75, 0x6D, 0x70, 0x73, 0x20, 0x6F, 0x76, 0x65, 0x72, 0x20, 0x74,
   0x68, 0x65, 0x20, 0x6C, 0x61, 0x7A, 0x79, 0x20, 0x64, 0x6F, 0x67]

/-- `ST_DIGEST` (R127). -/
def selftestDigest : Digest :=
  #v[0x07, 0xE5, 0x47, 0xD9, 0x58, 0x6F, 0x6A, 0x73, 0xF7, 0x3F, 0xBA, 0xC0, 0x43, 0x5E, 0xD7, 0x69,
     0x51, 0x21, 0x8F, 0xB7, 0xD0, 0xC8, 0xD7, 0x88, 0xA3, 0x09, 0xD7, 0x85, 0x43, 0x6B, 0xBB, 0x64,
     0x2E, 0x93, 0xA2, 0x52, 0xA9, 0x54, 0xF2, 0x39, 0x12, 0x54, 0x7D, 0x1E, 0x8A, 0x3B, 0x5E, 0xD6,
     0xE1, 0xBF, 0xD7, 0x09, 0x78, 0x21, 0x23, 0x3F, 0xA0, 0x53, 0x8F, 0x3D, 0xB8, 0x54, 0xFE, 0xE6]

/-- `ST_CT49` (R127). -/
def selftestCiphertext : Block :=
  #v[0x37, 0xFE, 0x26, 0xFF, 0x1C, 0xF6, 0x61, 0x75, 0xF5, 0xDD, 0xF4, 0xC3, 0x3B, 0x97, 0xA2, 0x05]

/-- The harness's next key, `(pt ‖ key)[0..32)` (R128). -/
def feedbackKey (pt : Block) (key : Key) : Key :=
  Vector.ofFn fun j : Fin 32 => if h : j.val < 16 then pt[j.val] else key[j.val - 16]

/-- `f n`, written so that Lean's kernel computes `n` before it goes on (`Laws.SelfTest` proves it equal to `f n`). -/
def strictNat {α : Type} (n : Nat) (f : Nat → α) : α :=
  match n with
  | 0     => f 0
  | k + 1 => f (k + 1)

/-- `f w`, with the word `w` computed first. -/
def strictWord {α : Type} (w : Word32) (f : Word32 → α) : α := strictNat w.toNat fun n => f (BitVec.ofNat 32 n)

/-- `f b`, with the block `b` computed first: the harness hands each ciphertext on as a value, not as the expression that
computes it (`Laws.SelfTest` proves it equal to `f b`). -/
def strictBlock {α : Type} (b : Block) (f : Block → α) : α :=
  strictWord (blockWords b).w0 fun w0 => strictWord (blockWords b).w1 fun w1 =>
    strictWord (blockWords b).w2 fun w2 => strictWord (blockWords b).w3 fun w3 => f (wordsBlock ⟨w0, w1, w2, w3⟩)

/-- `n` steps of the key-feedback harness (R128) from `key` and `pt`, after the ciphertext `ct`: the last ciphertext, or
nothing where a step's decryption does not give its plaintext back. -/
def harness : (n : Nat) → (key : Key) → (pt ct : Block) → Option Block
  | 0, _, _, ct => some ct
  | n + 1, key, pt, _ =>
    let ks := keySchedule key
    strictBlock (tfEncrypt ks pt) fun c =>
      if tfDecrypt ks c ≠ pt then none else harness n (feedbackKey pt key) c c

/-- `SelfTestRun()` (R128). Marked irreducible only so that no proof unfolds its 49 steps by accident. -/
@[irreducible]
def selftestRun : Bool :=
  if hashOf selftestMessage ≠ selftestDigest then false
  else harness 49 (Vector.replicate 32 0) (Vector.replicate 16 0) (Vector.replicate 16 0) == some selftestCiphertext

/-- NOP on the latched command (R125). -/
def nopRule (_ : Latched) (s : State) : State := s.succeed 0

/-- The self-test's result and nothing else (R36): ST_DONE is set, and ST_PASS is the result (R129). -/
def State.noteSelftest (s : State) (ok : Bool) : State := { s with stDone := true, stPass := ok }

/-- SELFTEST on the latched command (R129): the result is written even where the test fails (R131). -/
def selftestRule (_ : Latched) (s : State) : State :=
  let ok := selftestRun
  if !ok then (s.noteSelftest ok).raise .selftestFailure
  else (s.noteSelftest ok).succeed 0

/-- NOP (R125). -/
def execNop (s : State) : Host.Outcome State Fault Refusal := runCommand nopRule s

/-- SELFTEST (R129). -/
def execSelftest (s : State) : Host.Outcome State Fault Refusal := runCommand selftestRule s

end Sys2Proof.Machine
end

