-- ==== Sys2Proof/Machine/Dispatch.lean ====
section
/-! DEFINITION. From a command to its meaning: one arm per command (30_encoding.md R58). -/

namespace Sys2Proof.Machine

def exec (i : Instr) (s : State) : Host.Outcome State Fault Refusal :=
  match i with
  | .nop => Sys2Proof.Machine.execNop s
  | .hash => Sys2Proof.Machine.execHash s
  | .ecbEncrypt => Sys2Proof.Machine.execEcbEncrypt s
  | .ecbDecrypt => Sys2Proof.Machine.execEcbDecrypt s
  | .cbcEncrypt => Sys2Proof.Machine.execCbcEncrypt s
  | .cbcDecrypt => Sys2Proof.Machine.execCbcDecrypt s
  | .setPassword => Sys2Proof.Machine.execSetPassword s
  | .invalidate => Sys2Proof.Machine.execInvalidate s
  | .payloadEncrypt => Sys2Proof.Machine.execPayloadEncrypt s
  | .payloadDecrypt => Sys2Proof.Machine.execPayloadDecrypt s
  | .selftest => Sys2Proof.Machine.execSelftest s

end Sys2Proof.Machine
end

