-- ==== Sys2Proof/Machine/Engine.lean ====
section
/-! DEFINITION. The Engine's completion step (45_selftest_and_control.md R122), and the taking of an input. -/

namespace Sys2Proof.Machine

/-- The state once its oldest input is taken. -/
def State.popInput (s : State) : State := { s with inputs := s.inputs.tail }

/-- The Engine's step (R122). While BUSY it completes the latched command; a word that is no command completes with
ILLEGAL_CMD (R59). While IDLE the Engine has no step, and the block waits (R141). -/
def engineStep (s : State) : Host.Outcome State Fault Refusal :=
  match s.latched with
  | none   => .next s
  | some L =>
    match decode L.cmd with
    | .ok i    => exec i s
    | .error _ => .next s.illegalCommand

end Sys2Proof.Machine
end

