-- ==== Sys2Proof/Machine/HostBus.lean ====
section
/-! DEFINITION. The host's accesses to the block: the register map (10_state.md R20 to R31), the legal accesses and their
effects (20_memory.md R42 to R47, R52, R53) and the bus error (60_exceptions.md R133). -/

namespace Sys2Proof.Machine

/-- The size of the register window (R42). -/
def registerWindow : Nat := 0x100

/-- `BUF_BASE`, where the buffer window begins (R41, R42). -/
def bufBase : Nat := 0x10000

/-- The register at an offset of the register window; the offsets of no register are reserved (R20). -/
def registerAt : (offset : Nat) → Option HostReg
  | 0x000 => some .id
  | 0x004 => some .bufSize
  | 0x008 => some .status
  | 0x00C => some .cmd
  | 0x010 => some .srcAddr
  | 0x014 => some .srcLen
  | 0x018 => some .dstAddr
  | 0x01C => some .dstLen
  | 0x020 => some .intStatus
  | 0x024 => some .intEnable
  | 0x028 => some .markerLen
  | 0x02C => some .stretchRounds
  | _     => none

/-- What a host read of a register returns (R21 to R31). -/
def readRegister (s : State) : HostReg → Word32
  | .id            => 0x54465331
  | .bufSize       => BitVec.ofNat 32 s.cfg.bufBytes
  | .status        => s.statusWord
  | .cmd           => 0
  | .srcAddr       => s.srcAddr
  | .srcLen        => s.srcLen
  | .dstAddr       => s.dstAddr
  | .dstLen        => s.dstLen
  | .intStatus     => s.intStatusWord
  | .intEnable     => s.intEnableWord
  | .markerLen     => BitVec.ofNat 32 s.cfg.markerLen
  | .stretchRounds => s.cfg.stretchRounds

/-- What a host read at an offset of the register window returns; a reserved offset reads as 0 (R20). -/
def readAt (s : State) (offset : Nat) : Word32 :=
  match registerAt offset with
  | some r => readRegister s r
  | none   => 0

/-- A host write of `v` to a register (R21, R25, R26, R28, R29). While BUSY, the writes to CMD and to the operand
registers are ignored (R47). -/
def writeRegister (v : Word32) (s : State) : HostReg → State
  | .id            => s
  | .bufSize       => s
  | .status        => s
  | .cmd           => if s.busy then s.setIgn else s.issue v
  | .srcAddr       => if s.busy then s.setIgn else { s with srcAddr := v }
  | .srcLen        => if s.busy then s.setIgn else { s with srcLen := v }
  | .dstAddr       => if s.busy then s.setIgn else { s with dstAddr := v }
  | .dstLen        => s
  | .intStatus     => s.clearIntStatus v
  | .intEnable     => s.setIntEnable v
  | .markerLen     => s
  | .stretchRounds => s

/-- A host write at an offset of the register window; a reserved offset ignores it (R20, R21). -/
def writeAt (v : Word32) (s : State) (offset : Nat) : State :=
  match registerAt offset with
  | some r => writeRegister v s r
  | none   => s

/-- A legal access of width `w` at offset `o` to the register window (R44 (a)). -/
def legalRegisterAccess (w o : Nat) : Bool := o < registerWindow && w == 4 && o % 4 == 0

/-- A legal access of width `w` at offset `o` to the buffer window (R44 (b)). -/
def legalBufferAccess (c : Params) (w o : Nat) : Bool :=
  (w == 1 || w == 2 || w == 4) && bufBase ≤ o && o % w == 0 && o + w ≤ bufBase + c.bufBytes

/-- The block's response to the current access, as the host sees it. -/
def State.respond (s : State) (r : Response) : State := { s with response := some r }

/-- A bus error (R44, R133): the block's state is unchanged; the host's record keeps the access for good. -/
def State.busFault (s : State) (a : Access) : State :=
  { s with response := some .busError, busErrors := s.busErrors ++ [a] }

/-- A host read (R44 to R47). -/
def hostRead (w : Nat) (o : BitVec 17) (s : State) : State :=
  if legalRegisterAccess w o.toNat then s.respond (.data (readAt s o.toNat))
  else if legalBufferAccess s.cfg w o.toNat then
    if s.busy then s.setIgn.respond (.data 0)
    else s.noteRead.respond (.data (BitVec.ofNat 32 (leValue (s.memRead (o.toNat - bufBase) w))))
  else s.busFault (.read w o)

/-- A host write (R44 to R47). -/
def hostWrite (w : Nat) (o : BitVec 17) (v : Word32) (s : State) : State :=
  if legalRegisterAccess w o.toNat then (writeAt v s o.toNat).respond .done
  else if legalBufferAccess s.cfg w o.toNat then
    if s.busy then s.setIgn.respond .done
    else (s.memWrite (o.toNat - bufBase) (leBytes w v)).respond .done
  else s.busFault (.write w o v)

/-- One host access (R44). -/
def hostAccess : Access → State → State
  | .read w o, s    => hostRead w o s
  | .write w o v, s => hostWrite w o v s

end Sys2Proof.Machine
end

