-- ==== Sys2Proof/Machine/Step.lean ====
section
/-! DEFINITION. One step of the machine (00_scope.md R9): the next input of the interleaving, or the Engine's completion
step where no input is left. -/

namespace Sys2Proof.Machine

/-- One step: the oldest input decides which agent moves (R9). With no input left only the Engine can move, and a command
that was issued completes (R122). -/
def step (s : State) : Host.Outcome State Fault Refusal :=
  match s.inputs with
  | .host a :: _ => .next (hostAccess a s.popInput)
  | .engine :: _ => engineStep s.popInput
  | .reset :: _  => .next s.popInput.takeReset
  | []           => engineStep s

/-- `s` with the command in the low `nbits` bits of `w` issued, as a host write to CMD would issue it (R121), and with the
Engine's completion step as the next input: the very next step runs that command. -/
def State.withFetchWord (s : State) (nbits w : Nat) : State :=
  { s.issue (BitVec.ofNat 32 (w % 2 ^ nbits)) with inputs := .engine :: s.inputs }

end Sys2Proof.Machine
end

