-- ==== Sys2Proof/Safety.lean ====
section
/-! DEFINITION. The words the claims about the block are made in: the columns of the opcode table (30_encoding.md R58),
the legal accesses (20_memory.md R44), the order of the checks (60_exceptions.md R132) and the invariant of the state. -/

namespace Sys2Proof.Machine

/-- The gated commands: refused until the self-test has passed (R124). -/
def gated : Instr → Bool
  | .nop            => false
  | .hash           => true
  | .ecbEncrypt     => true
  | .ecbDecrypt     => true
  | .cbcEncrypt     => true
  | .cbcDecrypt     => true
  | .setPassword    => true
  | .invalidate     => false
  | .payloadEncrypt => true
  | .payloadDecrypt => true
  | .selftest       => false

/-- The keyed commands: refused while the vault is invalid (R104). -/
def keyed : Instr → Bool
  | .nop            => false
  | .hash           => false
  | .ecbEncrypt     => true
  | .ecbDecrypt     => true
  | .cbcEncrypt     => true
  | .cbcDecrypt     => true
  | .setPassword    => false
  | .invalidate     => false
  | .payloadEncrypt => true
  | .payloadDecrypt => true
  | .selftest       => false

/-- The commands that read the input range `(L.src, L.len)` (R58, column "in"). -/
def readsInput : Instr → Bool
  | .nop            => false
  | .hash           => true
  | .ecbEncrypt     => true
  | .ecbDecrypt     => true
  | .cbcEncrypt     => true
  | .cbcDecrypt     => true
  | .setPassword    => true
  | .invalidate     => false
  | .payloadEncrypt => true
  | .payloadDecrypt => true
  | .selftest       => false

/-- A legal access of width `w` at the host-window offset `o` (R44), as R44 writes it. -/
def LegalAccess (c : Params) (w o : Nat) : Prop :=
  (o ≤ 0xFF ∧ w = 4 ∧ o % 4 = 0) ∨
  ((w = 1 ∨ w = 2 ∨ w = 4) ∧ 0x10000 ≤ o ∧ o % w = 0 ∧ o + w ≤ 0x10000 + c.bufBytes)

/-- A legal access to the buffer window (R44 (b)). -/
def LegalBufferAccess (c : Params) (w o : Nat) : Prop :=
  (w = 1 ∨ w = 2 ∨ w = 4) ∧ 0x10000 ≤ o ∧ o % w = 0 ∧ o + w ≤ 0x10000 + c.bufBytes

/-- The width and the offset of an access. -/
def Access.place : Access → Nat × Nat
  | .read w o    => (w, o.toNat)
  | .write w o _ => (w, o.toNat)

/-- What a wrong length is for a command (R130, BAD_LENGTH). -/
def badLength (i : Instr) (n : Nat) : Bool :=
  ((i = .ecbEncrypt ∨ i = .ecbDecrypt) ∧ n ≠ 16) ∨ (i = .cbcDecrypt ∧ n % 16 ≠ 0)

/-- The length of the output range that check 8 of R132 looks at, for the commands that have one (R58): `n` is
the latched length. -/
def outputBound (i : Instr) (c : Params) (n : Nat) : Option Nat :=
  match i with
  | .hash           => some 64
  | .ecbEncrypt     => some 16
  | .ecbDecrypt     => some 16
  | .cbcEncrypt     => some (16 * ((n + 15) / 16))
  | .cbcDecrypt     => some n
  | .payloadEncrypt => some (if n = 0 then c.markerLen else c.markerLen + 64 + 16 * ((16 + n + 15) / 16))
  | .payloadDecrypt => some (if n = c.markerLen then 0 else n - c.markerLen - 80)
  | .nop            => none
  | .setPassword    => none
  | .invalidate     => none
  | .selftest       => none

/-- Check 8 of R132 fails: the output range does not lie in the buffer. -/
def outputOutOfBounds (i : Instr) (c : Params) (L : Latched) : Bool :=
  match outputBound i c L.len.toNat with
  | some n => c.bufBytes < L.dst.toNat + n
  | none   => false

/-- Check 6 of R132 fails: a payload that is shorter than the marker or does not begin with it. -/
def foreignPayload (i : Instr) (c : Params) (p : List Byte) : Bool :=
  i = .payloadDecrypt ∧ (p.length < c.markerLen ∨ p.take c.markerLen ≠ c.marker)

/-- Check 7 of R132 fails (R115): `M + 1` to `M + 80` bytes, or a ciphertext region that is not whole blocks. -/
def corruptedPayload (i : Instr) (c : Params) (n : Nat) : Bool :=
  i = .payloadDecrypt ∧ n ≠ c.markerLen ∧ (n < c.markerLen + 81 ∨ (n - c.markerLen - 64) % 16 ≠ 0)

/-- Check 10 of R132 fails for a payload: no candidate length's digest matches (R116). -/
def mismatchedPayload (i : Instr) (s : State) (p : List Byte) : Bool :=
  i = .payloadDecrypt ∧ p.length ≠ s.cfg.markerLen ∧
    resolvePadding (cbcDec s.vaultSchedule (cipherRegion s.cfg.markerLen p)) (storedDigest s.cfg.markerLen p) = none

/-- The one error a command reports: the first check of R132 that fails, in the order R132 gives them (from the second
on; the first, ILLEGAL_CMD, is about words that are no command). -/
def firstFailure (i : Instr) (L : Latched) (s : State) : ErrCode :=
  let n := L.len.toNat
  let p := s.memRead L.src.toNat n
  if gated i ∧ s.stPass = false then .notTested
  else if keyed i ∧ s.keyValid = false then .noKey
  else if readsInput i ∧ s.cfg.bufBytes < L.src.toNat + n then .range
  else if badLength i n then .badLength
  else if foreignPayload i s.cfg p then .foreignFormat
  else if corruptedPayload i s.cfg n then .corrupted
  else if outputOutOfBounds i s.cfg L then .range
  else if i = .payloadEncrypt ∧ n ≠ 0 ∧ s.trngAnswer = .unavailable then .randomnessUnavailable
  else if mismatchedPayload i s p then .integrityMismatch
  else if i = .selftest ∧ selftestRun = false then .selftestFailure
  else .ok

/-- The invariant of the state. -/
structure State.Inv (s : State) : Prop where
  /-- The buffer is in its canonical form. -/
  bufCanonical : s.buf.wf
  /-- Every byte of the buffer lies at an offset below BUF_BYTES (R39). -/
  bufInRange   : ∀ c ∈ s.buf, c.1 < s.cfg.bufBytes
  /-- An invalid vault is all zero (R35). -/
  vaultZeroed  : s.keyValid = false → s.vault = zeroVault
  /-- The self-test cannot have passed without having run (R36). -/
  passedIsDone : s.stPass = true → s.stDone = true
  /-- DST_LEN is 0 after an error (R27, R131). -/
  errorLength  : s.err ≠ .ok → s.dstLen = 0
  /-- DST_LEN never exceeds the buffer (R27, R49). -/
  lengthFits   : s.dstLen.toNat ≤ s.cfg.bufBytes

/-- The host accesses of a list of inputs that only holds host accesses. -/
def hostEvents (as : List Access) : List Event := as.map .host

end Sys2Proof.Machine
end

