-- ==== Sys2Proof/Certificates/Slice0/Obligations.lean ====
section
/-! DEFINITION. The statements about the block, for the provers. The rules cited are those of spec/; where a statement
speaks of the model's own fields (the inputs, the numbering of the draws, the host's record) its docstring says so. -/

open Sys2Proof Sys2Proof.Machine

/-! ## Encoding -/

/-- Decoding the word of a command gives the command back (R57, R58). -/
def Obligations.DecodeOfEncodeIsTheCommand : Prop :=
  ∀ i : Instr, i.wf = true → decode (encode i) = .ok i

/-- A word the decoder takes for a command is that command's one word: no bit of it is dropped (R57, R58). -/
def Obligations.LegalWordIsTheWordOfItsCommand : Prop :=
  ∀ (w : Word32) (i : Instr), decode w = .ok i → w = encode i

/-- R59: a word is illegal exactly when RSV is not 0 or OPC is not assigned; it is issued like any word, and its
completion raises ILLEGAL_CMD with no other effect. -/
def Obligations.IllegalWordIsIssuedAndEndsWithIllegalCmd : Prop :=
  ∀ w : Word32,
    ((∃ e, decode w = .error e) ↔
      (w.extractLsb' 8 24 ≠ 0 ∨
        w.extractLsb' 0 8 ∉ [0x00#8, 0x01, 0x10, 0x11, 0x20, 0x21, 0x30, 0x31, 0x40, 0x41, 0x50])) ∧
    (∀ e, decode w = .error e →
      (∀ s : State, s.busy = false →
        hostWrite 4 0x00C w s =
          { s with latched := some ⟨w, s.srcAddr, s.srcLen, s.dstAddr⟩, response := some .done }) ∧
      (∀ (s : State) (L : Latched), s.latched = some L → L.cmd = w →
        engineStep s = .next { s with latched := none, intDone := true, err := .illegalCmd, dstLen := 0 }))

/-- Six words written out from R57 and R58, and what they decode to. -/
def Obligations.SampleWordsDecodeAsTheTableSays : Prop :=
  decode 0x00000000 = .ok .nop ∧ decode 0x00000001 = .ok .hash ∧ decode 0x00000021 = .ok .cbcDecrypt ∧
  decode 0x00000050 = .ok .selftest ∧ decode 0x00000102 = .error .reservedNonzero ∧
  decode 0x000000FF = .error .unassignedOpcode

/-! ## The step -/

/-- R9, R121, R122: the oldest input decides which agent moves. A host access is the block's access on the state with that
input taken, the Engine's completion is the Engine's step on it, and where no input is left the Engine's step comes. The
Engine's step runs the latched command that the decoder reads from its word, and leaves the state as it is where nothing is
latched. That the interleaving is a list of inputs is the model's choice (log entry 4). -/
def Obligations.StepRunsTheLatchedCommand : Prop :=
  ∀ s : State,
    (∀ a rest, s.inputs = .host a :: rest → step s = .next (hostAccess a { s with inputs := rest })) ∧
    (∀ w o rest, s.inputs = .host (.read w o) :: rest → step s = .next (hostRead w o { s with inputs := rest })) ∧
    (∀ w o v rest, s.inputs = .host (.write w o v) :: rest →
      step s = .next (hostWrite w o v { s with inputs := rest })) ∧
    (∀ rest, s.inputs = .engine :: rest → step s = engineStep { s with inputs := rest }) ∧
    (s.inputs = [] → step s = engineStep s) ∧
    (s.latched = none → engineStep s = .next s) ∧
    ∀ (L : Latched) (i : Instr), s.latched = some L → decode L.cmd = .ok i →
      engineStep s = exec i s ∧
      (∀ rest, s.inputs = .engine :: rest → step s = exec i { s with inputs := rest }) ∧
      (s.inputs = [] → step s = exec i s)

/-- The block never stops: every step from every state answers a next state. Three of the model's choices stand behind it:
with no input left an idle block waits as it is (R141; log entry 4), an illegal access is recorded as a bus error and the
machine goes on (R133; log entry 5), and a meaning, which answers a fault where nothing is latched, is called only while a
command is latched (R33, R122; log entry 7). -/
def Obligations.EveryStepAnswersANextState : Prop :=
  ∀ s : State, ∃ t, step s = .next t

/-- The invariant (`State.Inv`) is kept by every step: the buffer's canonical form and range, the vault rule of R35, the
self-test rule of R36, and the two rules on DST_LEN of R27 and R49. -/
def Obligations.InvariantKeptByEveryStep : Prop :=
  ∀ s t : State, s.Inv → step s = .next t → t.Inv

/-- The invariant holds after reset. -/
def Obligations.ResetMeetsTheInvariant : Prop := State.reset.Inv

/-- R141, R142: a reset, at any point between steps, discards the latched command with none of its effects and leaves every
piece of state at its reset value; the block then waits. -/
def Obligations.ResetLeavesTheResetValues : Prop :=
  ∀ (s : State) (rest : List Event), s.inputs = .reset :: rest →
    ∃ t, step s = .next t ∧ t.latched = none ∧ t.keyValid = false ∧ t.vault = Vector.replicate 32 0 ∧
      t.stDone = false ∧ t.stPass = false ∧ t.err = .ok ∧ t.statusWord = 0 ∧
      t.srcAddr = 0 ∧ t.srcLen = 0 ∧ t.dstAddr = 0 ∧ t.dstLen = 0 ∧
      t.intDone = false ∧ t.intIgn = false ∧ t.doneIe = false ∧ t.ignIe = false ∧ t.irq = false ∧
      readAt t 0x000 = 0x54465331 ∧ readAt t 0x004 = BitVec.ofNat 32 s.cfg.bufBytes ∧
      readAt t 0x028 = BitVec.ofNat 32 s.cfg.marker.length ∧ readAt t 0x02C = s.cfg.stretchRounds ∧
      (∀ a, t.buf.read a = none) ∧ t.inputs = rest ∧ (rest = [] → step t = .next t)

/-- The parameters are hardwired: no step changes them. That they stand in the state is the model's choice (log entry 1). -/
def Obligations.NoStepChangesTheParameters : Prop :=
  ∀ s t : State, step s = .next t → t.cfg = s.cfg

/-! ## Host accesses -/

/-- R133: an access that is not legal by R44 gets a bus error and changes no state of the block; the record of it is never
cleared, and only an illegal access is recorded. -/
def Obligations.IllegalAccessGetsABusErrorAndChangesNothing : Prop :=
  (∀ (s : State) (a : Access) (rest : List Event), s.inputs = .host a :: rest →
    ¬ LegalAccess s.cfg a.place.1 a.place.2 →
    step s = .next { s with inputs := rest, response := some .busError, busErrors := s.busErrors ++ [a] }) ∧
  (∀ s t : State, step s = .next t →
    t.busErrors = s.busErrors ∨
    ∃ a rest, s.inputs = .host a :: rest ∧ ¬ LegalAccess s.cfg a.place.1 a.place.2 ∧
      t.busErrors = s.busErrors ++ [a])

/-- R47: while BUSY, every legal buffer access and every write to CMD, SRC_ADDR, SRC_LEN or DST_ADDR is ignored: it sets
IGN, a read returns 0, and nothing else changes. Every other legal register access does what it does while idle (a read of
STATUS shows BUSY). -/
def Obligations.AccessesWhileBusyAreIgnored : Prop :=
  ∀ s : State, s.busy = true →
    (∀ (w : Nat) (o : BitVec 17), LegalBufferAccess s.cfg w o.toNat →
      hostRead w o s = { s with intIgn := true, response := some (.data 0) } ∧
      ∀ v, hostWrite w o v s = { s with intIgn := true, response := some .done }) ∧
    (∀ o : BitVec 17, o.toNat ≤ 0xFF → o.toNat % 4 = 0 →
      (∀ v, o.toNat ∈ [0x00C, 0x010, 0x014, 0x018] →
        hostWrite 4 o v s = { s with intIgn := true, response := some .done }) ∧
      (∀ v, o.toNat ∉ [0x00C, 0x010, 0x014, 0x018] →
        hostWrite 4 o v s = { hostWrite 4 o v { s with latched := none } with latched := s.latched }) ∧
      (o.toNat ≠ 0x008 → hostRead 4 o s = { hostRead 4 o { s with latched := none } with latched := s.latched }) ∧
      (o.toNat = 0x008 → hostRead 4 o s = { s with response := some (.data s.statusWord) }))

/-- R46, with the bytes and the value of R45: a legal buffer write while idle sets its bytes, little-endian, and marks them
written; a legal buffer read returns the little-endian value of its bytes, a byte nothing has written being a draw of this
read (R48; the draws' numbering is the model's own field, log entry 2). Neither has any other effect. -/
def Obligations.IdleBufferAccessesAreLittleEndian : Prop :=
  ∀ (s : State) (w : Nat) (o : BitVec 17), s.busy = false → LegalBufferAccess s.cfg w o.toNat →
    (∀ v : Word32, ∃ m : Memory,
      hostWrite w o v s = { s with buf := m, response := some .done } ∧
      ∀ a, m.read a =
        if o.toNat - 0x10000 ≤ a ∧ a < o.toNat - 0x10000 + w
        then some (v.extractLsb' (8 * (a - (o.toNat - 0x10000))) 8) else s.buf.read a) ∧
    hostRead w o s = { s with
      bufReads := s.bufReads + 1
      response := some (.data (BitVec.ofNat 32 (∑ i ∈ Finset.range w,
        ((s.buf.read (o.toNat - 0x10000 + i)).getD
          (Config.unwrittenByte s.bufReads (o.toNat - 0x10000 + i))).toNat * 2 ^ (8 * i)))) }

/-- R121: a write to CMD while idle latches the word and the operand registers and sets BUSY, and changes nothing else;
while BUSY it is ignored. Every word is issued. -/
def Obligations.WritingCmdIssuesTheCommand : Prop :=
  ∀ (s : State) (v : Word32) (rest : List Event), s.inputs = .host (.write 4 0x00C v) :: rest →
    (s.busy = false →
      step s = .next { s with
        inputs := rest, response := some .done, latched := some ⟨v, s.srcAddr, s.srcLen, s.dstAddr⟩ } ∧
      ∀ t, step s = .next t → t.busy = true) ∧
    (s.busy = true → step s = .next { s with inputs := rest, response := some .done, intIgn := true })

/-- R26: while idle, each operand register stores every value as it is written and reads back as it was stored, and the
write changes nothing else; no completion changes one. -/
def Obligations.OperandRegistersHoldWhatIsWritten : Prop :=
  (∀ (s : State) (v : Word32), s.busy = false →
    hostWrite 4 0x010 v s = { s with srcAddr := v, response := some .done } ∧
    hostWrite 4 0x014 v s = { s with srcLen := v, response := some .done } ∧
    hostWrite 4 0x018 v s = { s with dstAddr := v, response := some .done }) ∧
  (∀ s : State,
    hostRead 4 0x010 s = { s with response := some (.data s.srcAddr) } ∧
    hostRead 4 0x014 s = { s with response := some (.data s.srcLen) } ∧
    hostRead 4 0x018 s = { s with response := some (.data s.dstAddr) }) ∧
  (∀ s t : State, engineStep s = .next t → t.srcAddr = s.srcAddr ∧ t.srcLen = s.srcLen ∧ t.dstAddr = s.dstAddr)

/-- R20, R21: a write to a read-only register or to a reserved offset has no effect and raises no bus error; CMD and the
reserved offsets read as 0. -/
def Obligations.ReadOnlyAndReservedOffsetsIgnoreWrites : Prop :=
  ∀ (s : State) (o : BitVec 17), o.toNat ≤ 0xFF → o.toNat % 4 = 0 →
    (o.toNat ∉ [0x00C, 0x010, 0x014, 0x018, 0x020, 0x024] →
      ∀ v, hostWrite 4 o v s = { s with response := some .done }) ∧
    (o.toNat = 0x00C ∨ 0x030 ≤ o.toNat → hostRead 4 o s = { s with response := some (.data 0) })

/-- What each readable register returns (R22, R23, R27, R30, R31), and where the fields of STATUS, INT_STATUS and INT_ENABLE
stand (R24, R28, R29), with the eleven codes of ERR (R60): every other bit of the three reads 0. At every aligned offset of
the register window, and whether BUSY or not, a host read returns `readAt` of that offset and changes nothing (R44, R53). -/
def Obligations.RegistersReadAsTheMapSays : Prop :=
  ∀ s : State,
    (∀ o : BitVec 17, o.toNat ≤ 0xFF → o.toNat % 4 = 0 →
      hostRead 4 o s = { s with response := some (.data (readAt s o.toNat)) }) ∧
    readAt s 0x000 = 0x54465331 ∧ (readAt s 0x004).toNat = s.cfg.bufBytes ∧ readAt s 0x01C = s.dstLen ∧
    (readAt s 0x028).toNat = s.cfg.marker.length ∧ readAt s 0x02C = s.cfg.stretchRounds ∧
    (readAt s 0x008).toNat = s.latched.isSome.toNat + 2 * s.keyValid.toNat + 4 * s.stDone.toNat + 8 * s.stPass.toNat +
      256 * (match s.err with
        | .ok                    => 0x00
        | .illegalCmd            => 0x01
        | .notTested             => 0x02
        | .noKey                 => 0x03
        | .range                 => 0x04
        | .badLength             => 0x05
        | .randomnessUnavailable => 0x06
        | .foreignFormat         => 0x07
        | .corrupted             => 0x08
        | .integrityMismatch     => 0x09
        | .selftestFailure       => 0x0A) ∧
    (readAt s 0x020).toNat = s.intDone.toNat + 2 * s.intIgn.toNat ∧
    (readAt s 0x024).toNat = s.doneIe.toNat + 2 * s.ignIe.toNat

/-- R28, R29: writing INT_STATUS clears the bits written as 1 and no other; writing INT_ENABLE stores its two bits; both are
effective while BUSY and change nothing else. -/
def Obligations.InterruptRegistersWriteAsTheMapSays : Prop :=
  ∀ (s : State) (v : Word32),
    hostWrite 4 0x020 v s = { s with
      intDone := (if v.getLsbD 0 = true then false else s.intDone)
      intIgn := (if v.getLsbD 1 = true then false else s.intIgn)
      response := some .done } ∧
    hostWrite 4 0x024 v s =
      { s with doneIe := v.getLsbD 0, ignIe := v.getLsbD 1, response := some .done }

/-- R134: the interrupt output is DONE where DONE_IE enables it, or IGN where IGN_IE does. So after a completion, legal word or
not, it is 1 exactly where DONE_IE is set or an enabled IGN is pending, and after an access ignored while BUSY (R47), a
buffer access or a write to CMD or to an operand register, exactly where IGN_IE is set or an enabled DONE is pending.
A source stops counting when it is cleared by writing 1 to its bit of INT_STATUS, or masked in INT_ENABLE. -/
def Obligations.InterruptOutputIsItsFormula : Prop :=
  ∀ s : State,
    s.irq = ((s.intDone && s.doneIe) || (s.intIgn && s.ignIe)) ∧
    (∀ L, s.latched = some L →
      ∃ t, engineStep s = .next t ∧ t.irq = (s.doneIe || (s.intIgn && s.ignIe))) ∧
    (s.busy = true →
      (∀ (w : Nat) (o : BitVec 17), LegalBufferAccess s.cfg w o.toNat →
        (hostRead w o s).irq = ((s.intDone && s.doneIe) || s.ignIe) ∧
        ∀ v, (hostWrite w o v s).irq = ((s.intDone && s.doneIe) || s.ignIe)) ∧
      (∀ (o : BitVec 17) (v : Word32), o.toNat ∈ [0x00C, 0x010, 0x014, 0x018] →
        (hostWrite 4 o v s).irq = ((s.intDone && s.doneIe) || s.ignIe))) ∧
    ∀ v : Word32,
      (hostWrite 4 0x020 v s).irq =
        ((s.intDone && !v.getLsbD 0 && s.doneIe) || (s.intIgn && !v.getLsbD 1 && s.ignIe)) ∧
      (hostWrite 4 0x024 v s).irq = ((s.intDone && v.getLsbD 0) || (s.intIgn && v.getLsbD 1))

/-- R134, R147: the interrupt output is a level. It falls only at a reset, or at a host write to INT_STATUS or INT_ENABLE. -/
def Obligations.InterruptStaysUntilClearedOrMasked : Prop :=
  ∀ s t : State, step s = .next t → s.irq = true → t.irq = false →
    (∃ rest, s.inputs = .reset :: rest) ∨
    (∃ o v rest, s.inputs = .host (.write 4 o v) :: rest ∧ (o = 0x020 ∨ o = 0x024))

/-- R24: only a completion, a reset and a command's issue change STATUS, and an issue changes BUSY only. -/
def Obligations.HostAccessesChangeOnlyBusyOfStatus : Prop :=
  ∀ (s t : State) (a : Access) (rest : List Event), s.inputs = .host a :: rest → step s = .next t →
    t.statusWord = s.statusWord ∨
    (∃ v, a = .write 4 0x00C v ∧ s.busy = false ∧ t.statusWord = s.statusWord ||| 1)

/-- R34: neither register nor buffer shows or changes the vault: a host access does the same thing, and gets the same
response, whatever the vault holds, and it leaves the vault as it was. -/
def Obligations.HostAccessesNeitherSeeNorChangeTheVault : Prop :=
  ∀ (s : State) (a : Access) (v : Key), hostAccess a { s with vault := v } = { hostAccess a s with vault := v }

/-- R145, R52: host accesses made while a command runs do not affect it. From a state with a command latched, any list of
host accesses and then the Engine's step ends with everything the command writes as if the Engine's step had come at once
(the inputs and the numbering of the draws are the model's own fields). -/
def Obligations.HostAccessesWhileBusyDoNotAffectTheCommand : Prop :=
  ∀ (s : State) (L : Latched) (as : List Access), s.latched = some L → s.inputs = hostEvents as ++ [.engine] →
    ∃ t u, Sys2Proof.core.run (as.length + 1) s = .next t ∧ engineStep s = .next u ∧
      t.buf = u.buf ∧ t.dstLen = u.dstLen ∧ t.err = u.err ∧ t.vault = u.vault ∧ t.keyValid = u.keyValid ∧
      t.stDone = u.stDone ∧ t.stPass = u.stPass ∧ t.latched = u.latched ∧ t.intDone = u.intDone ∧
      t.srcAddr = u.srcAddr ∧ t.srcLen = u.srcLen ∧ t.dstAddr = u.dstAddr ∧
      t.trng = u.trng ∧ t.trngDraws = u.trngDraws ∧ t.bufReads = u.bufReads

/-! ## Completion, errors and their order -/

/-- R122: every command that is latched completes in one step, whether it succeeds or not: BUSY is cleared, the latched
command is discarded, DONE is set, and the operand registers, IGN, INT_ENABLE and the parameters are as before. -/
def Obligations.CompletionHasTheCommonEffects : Prop :=
  ∀ (s : State) (L : Latched) (i : Instr), s.latched = some L →
    ∃ t, exec i s = .next t ∧ t.latched = none ∧ t.busy = false ∧ t.intDone = true ∧
      t.srcAddr = s.srcAddr ∧ t.srcLen = s.srcLen ∧ t.dstAddr = s.dstAddr ∧ t.intIgn = s.intIgn ∧
      t.doneIe = s.doneIe ∧ t.ignIe = s.ignIe ∧ t.cfg = s.cfg ∧ t.inputs = s.inputs ∧
      t.response = s.response ∧ t.busErrors = s.busErrors

/-- R131: a command that ends with an error writes no buffer byte, leaves the vault and KEY_VALID, and sets DST_LEN to 0;
only SELFTEST still writes its result. -/
def Obligations.FailedCommandHasNoOtherEffect : Prop :=
  ∀ (s t : State) (L : Latched) (i : Instr), s.latched = some L → exec i s = .next t → t.err ≠ .ok →
    t.buf = s.buf ∧ t.vault = s.vault ∧ t.keyValid = s.keyValid ∧ t.dstLen = 0 ∧ t.latched = none ∧
    t.intDone = true ∧ t.srcAddr = s.srcAddr ∧ t.srcLen = s.srcLen ∧ t.dstAddr = s.dstAddr ∧ t.intIgn = s.intIgn ∧
    t.doneIe = s.doneIe ∧ t.ignIe = s.ignIe ∧
    (i ≠ .selftest → t.stDone = s.stDone ∧ t.stPass = s.stPass) ∧
    (i = .selftest → t.stDone = true ∧ t.stPass = false)

/-- R132: a command reports exactly one error, the first of the ten checks that fails, in the order of the rule. -/
def Obligations.ReportedErrorIsTheFirstFailingCheck : Prop :=
  ∀ (s : State) (L : Latched), s.latched = some L →
    ∃ t, engineStep s = .next t ∧
      t.err = match decode L.cmd with
        | .error _ => .illegalCmd
        | .ok i    => firstFailure i L s

/-- R43: no command writes a buffer byte outside its output range, and a command that ends with an error writes none. -/
def Obligations.OutputStaysInItsRange : Prop :=
  ∀ (s t : State) (L : Latched) (i : Instr), s.latched = some L → exec i s = .next t →
    (∀ a, (a < L.dst.toNat ∨ L.dst.toNat + t.dstLen.toNat ≤ a) → t.buf.read a = s.buf.read a) ∧
    (t.err ≠ .ok → t.buf = s.buf)

/-- R124: until the self-test has passed, every gated command ends with NOT_TESTED and does nothing else, and the other
three never report it. -/
def Obligations.SelftestGateRefusesGatedCommands : Prop :=
  ∀ (s : State) (L : Latched) (i : Instr), s.latched = some L →
    (gated i = true → s.stPass = false →
      exec i s = .next { s with latched := none, intDone := true, err := .notTested, dstLen := 0 }) ∧
    (i = .nop ∨ i = .invalidate ∨ i = .selftest → ∀ t, exec i s = .next t → t.err ≠ .notTested)

/-- R104: while the vault is invalid, every keyed command the gate lets through ends with NO_KEY, whatever its operands,
and does nothing else. -/
def Obligations.InvalidVaultRefusesKeyedCommands : Prop :=
  ∀ (s : State) (L : Latched) (i : Instr), s.latched = some L → keyed i = true → s.stPass = true →
    s.keyValid = false →
    exec i s = .next { s with latched := none, intDone := true, err := .noKey, dstLen := 0 }

/-- R112, R137: the randomness source is asked exactly once by a PAYLOAD_ENCRYPT of a non-empty plaintext all of whose other
checks pass, and by no other command. (The answers still to come and their count are the model's own fields, log entry 3.) -/
def Obligations.TokenIsDrawnOnceByNonEmptyPayloadEncrypt : Prop :=
  ∀ (s t : State) (L : Latched) (i : Instr), s.latched = some L → exec i s = .next t →
    ((i = .payloadEncrypt ∧ L.len ≠ 0 ∧ s.stPass = true ∧ s.keyValid = true ∧
        L.src.toNat + L.len.toNat ≤ s.cfg.bufBytes ∧
        L.dst.toNat + (s.cfg.markerLen + 64 + ceil16 (16 + L.len.toNat)) ≤ s.cfg.bufBytes) →
      t.trng = s.trng.tail ∧ t.trngDraws = s.trngDraws + 1) ∧
    (¬ (i = .payloadEncrypt ∧ L.len ≠ 0 ∧ s.stPass = true ∧ s.keyValid = true ∧
        L.src.toNat + L.len.toNat ≤ s.cfg.bufBytes ∧
        L.dst.toNat + (s.cfg.markerLen + 64 + ceil16 (16 + L.len.toNat)) ≤ s.cfg.bufBytes) →
      t.trng = s.trng ∧ t.trngDraws = s.trngDraws)

/-! ## The commands -/

/-- R125: the all-zero word is NOP, and NOP succeeds with no output and changes nothing else. -/
def Obligations.NopOnlyCompletes : Prop :=
  decode 0x00000000 = .ok .nop ∧ ∀ (s : State) (L : Latched), s.latched = some L →
    exec .nop s = .next { s with latched := none, intDone := true, err := .ok, dstLen := 0 }

/-- The success of HASH (R74): the 64-byte digest of the input range, at L.dst. The input's draws are counted (the model's
own field). -/
def Obligations.HashWritesTheDigestOfItsInput : Prop :=
  ∀ (s : State) (L : Latched), s.latched = some L → s.stPass = true →
    L.src.toNat + L.len.toNat ≤ s.cfg.bufBytes → L.dst.toNat + 64 ≤ s.cfg.bufBytes →
    exec .hash s = .next { s with
      latched := none, intDone := true, err := .ok, dstLen := 64, bufReads := s.bufReads + 1
      buf := s.buf.writeBytes L.dst.toNat (hashOf (s.memRead L.src.toNat L.len.toNat)).toList }

/-- The success of ECB_ENCRYPT and ECB_DECRYPT (R89, R90): the block at L.src, under the key the vault holds, at L.dst. -/
def Obligations.EcbCommandsWriteTheBlockUnderTheVaultKey : Prop :=
  ∀ (s : State) (L : Latched), s.latched = some L → s.stPass = true → s.keyValid = true → L.len.toNat = 16 →
    L.src.toNat + 16 ≤ s.cfg.bufBytes → L.dst.toNat + 16 ≤ s.cfg.bufBytes →
    exec .ecbEncrypt s = .next { s with
      latched := none, intDone := true, err := .ok, dstLen := 16, bufReads := s.bufReads + 1
      buf := s.buf.writeBytes L.dst.toNat
        (tfEncrypt (keySchedule (deobfuscate s.vault)) (bytesToVector 16 (s.memRead L.src.toNat 16))).toList } ∧
    exec .ecbDecrypt s = .next { s with
      latched := none, intDone := true, err := .ok, dstLen := 16, bufReads := s.bufReads + 1
      buf := s.buf.writeBytes L.dst.toNat
        (tfDecrypt (keySchedule (deobfuscate s.vault)) (bytesToVector 16 (s.memRead L.src.toNat 16))).toList }

/-- The success of CBC_ENCRYPT (R97): the whole blocks of the zero-extended input, chained, at L.dst. -/
def Obligations.CbcEncryptWritesTheChainedCiphertext : Prop :=
  ∀ (s : State) (L : Latched), s.latched = some L → s.stPass = true → s.keyValid = true →
    L.src.toNat + L.len.toNat ≤ s.cfg.bufBytes → L.dst.toNat + ceil16 L.len.toNat ≤ s.cfg.bufBytes →
    exec .cbcEncrypt s = .next { s with
      latched := none, intDone := true, err := .ok, dstLen := BitVec.ofNat 32 (ceil16 L.len.toNat)
      bufReads := s.bufReads + 1
      buf := s.buf.writeBytes L.dst.toNat
        (cbcEnc (keySchedule (deobfuscate s.vault)) (s.memRead L.src.toNat L.len.toNat)) }

/-- The success of CBC_DECRYPT (R98): the input's whole blocks, unchained, at L.dst. -/
def Obligations.CbcDecryptWritesTheUnchainedPlaintext : Prop :=
  ∀ (s : State) (L : Latched), s.latched = some L → s.stPass = true → s.keyValid = true → L.len.toNat % 16 = 0 →
    L.src.toNat + L.len.toNat ≤ s.cfg.bufBytes → L.dst.toNat + L.len.toNat ≤ s.cfg.bufBytes →
    exec .cbcDecrypt s = .next { s with
      latched := none, intDone := true, err := .ok, dstLen := L.len, bufReads := s.bufReads + 1
      buf := s.buf.writeBytes L.dst.toNat
        (cbcDec (keySchedule (deobfuscate s.vault)) (s.memRead L.src.toNat L.len.toNat)) }

/-- The success of SET_PASSWORD (R106): the vault becomes valid and holds, obfuscated (R102), the key `k` derived from the
password, and the key a later command uses is `k` (R103). Byte `j` of `k` is the sum modulo 256 of bytes `j` and `j + 32` of
the password's digest re-hashed STRETCH_ROUNDS times (R100). -/
def Obligations.SetPasswordStoresTheDerivedKey : Prop :=
  ∀ (s : State) (L : Latched), s.latched = some L → s.stPass = true →
    L.src.toNat + L.len.toNat ≤ s.cfg.bufBytes →
    ∃ (v k : Key) (d : Digest),
      exec .setPassword s = .next { s with
        latched := none, intDone := true, err := .ok, dstLen := 0, bufReads := s.bufReads + 1
        vault := v, keyValid := true } ∧
      d = (fun e : Digest => hashOf e.toList)^[s.cfg.stretchRounds.toNat]
        (hashOf (s.memRead L.src.toNat L.len.toNat)) ∧
      (∀ j : Fin 32, (k[j.val]).toNat = ((d[j.val]).toNat + (d[j.val + 32]).toNat) % 256 ∧
        v[j.val] = (k[j.val]).rotateLeft (j.val % 7 + 1)) ∧
      getKey v = k ∧ k = deriveKey s.cfg.stretchRounds.toNat (s.memRead L.src.toNat L.len.toNat)

/-- R107: the word 0x31 is INVALIDATE, and INVALIDATE zeroes the vault and clears KEY_VALID in any state, and changes nothing
else; it does not clear the buffer. -/
def Obligations.InvalidateZeroesTheVault : Prop :=
  decode 0x00000031 = .ok .invalidate ∧ ∀ (s : State) (L : Latched), s.latched = some L →
    exec .invalidate s = .next { s with
      latched := none, intDone := true, err := .ok, dstLen := 0, vault := Vector.replicate 32 0, keyValid := false }

/-- PAYLOAD_ENCRYPT of an empty plaintext (R113): only the marker is written, and no token is drawn. -/
def Obligations.PayloadEncryptOfNothingWritesTheMarker : Prop :=
  ∀ (s : State) (L : Latched), s.latched = some L → s.stPass = true → s.keyValid = true → L.len = 0 →
    L.src.toNat ≤ s.cfg.bufBytes → L.dst.toNat + s.cfg.marker.length ≤ s.cfg.bufBytes →
    exec .payloadEncrypt s = .next { s with
      latched := none, intDone := true, err := .ok, dstLen := BitVec.ofNat 32 s.cfg.marker.length
      buf := s.buf.writeBytes L.dst.toNat s.cfg.marker }

/-- PAYLOAD_ENCRYPT of a non-empty plaintext (R113): with a token, marker, digest and ciphertext of token and plaintext are
written; with none, the command ends with RANDOMNESS_UNAVAILABLE and writes nothing. The answer a draw gets is the oldest of
the answers to come, and where there is none the free one that the number of the draw names, so either kind can come (R137);
that the answers stand in a list and a free constant is the model's choice (log entry 3). -/
def Obligations.PayloadEncryptWritesMarkerDigestAndCiphertext : Prop :=
  (∀ (s : State) (a : TrngAnswer) (rest : List TrngAnswer), s.trng = a :: rest → s.trngAnswer = a) ∧
  (∀ s : State, s.trng = [] → s.trngAnswer = Config.trngFree s.trngDraws) ∧
  ∀ (s : State) (L : Latched), s.latched = some L → s.stPass = true → s.keyValid = true → L.len ≠ 0 →
    L.src.toNat + L.len.toNat ≤ s.cfg.bufBytes →
    L.dst.toNat + (s.cfg.marker.length + 64 + ceil16 (16 + L.len.toNat)) ≤ s.cfg.bufBytes →
    (∀ t : Token, s.trngAnswer = .bytes t →
      exec .payloadEncrypt s = .next { s with
        latched := none, intDone := true, err := .ok
        dstLen := BitVec.ofNat 32 (s.cfg.marker.length + 64 + ceil16 (16 + L.len.toNat))
        bufReads := s.bufReads + 1, trng := s.trng.tail, trngDraws := s.trngDraws + 1
        buf := s.buf.writeBytes L.dst.toNat
          (s.cfg.marker ++ (hashOf (t.toList ++ s.memRead L.src.toNat L.len.toNat)).toList ++
            cbcEnc (keySchedule (deobfuscate s.vault)) (t.toList ++ s.memRead L.src.toNat L.len.toNat)) }) ∧
    (s.trngAnswer = .unavailable →
      exec .payloadEncrypt s = .next { s with
        latched := none, intDone := true, err := .randomnessUnavailable, dstLen := 0
        trng := s.trng.tail, trngDraws := s.trngDraws + 1 })

/-- PAYLOAD_DECRYPT of a marker alone (R117): the empty document, whatever the key. -/
def Obligations.PayloadDecryptOfTheMarkerIsEmpty : Prop :=
  ∀ (s : State) (L : Latched), s.latched = some L → s.stPass = true → s.keyValid = true →
    L.src.toNat + L.len.toNat ≤ s.cfg.bufBytes → L.dst.toNat ≤ s.cfg.bufBytes →
    s.memRead L.src.toNat L.len.toNat = s.cfg.marker →
    exec .payloadDecrypt s = .next { s with
      latched := none, intDone := true, err := .ok, dstLen := 0, bufReads := s.bufReads + 1 }

/-- PAYLOAD_DECRYPT of a payload (R117): with marker `M`, stored digest `d` and whole ciphertext blocks that decrypt to `x`,
a candidate length `r` that the padding resolution finds gives the text `x[16..r)` at L.dst; where it finds none, the command
ends with INTEGRITY_MISMATCH and writes nothing. -/
def Obligations.PayloadDecryptWritesTheVerifiedText : Prop :=
  ∀ (s : State) (L : Latched) (d : Digest) (c x : List Byte),
    s.latched = some L → s.stPass = true → s.keyValid = true →
    L.src.toNat + L.len.toNat ≤ s.cfg.bufBytes →
    s.memRead L.src.toNat L.len.toNat = s.cfg.marker ++ d.toList ++ c → c.length % 16 = 0 → 32 ≤ c.length →
    L.dst.toNat + (c.length - 16) ≤ s.cfg.bufBytes →
    x = cbcDec (keySchedule (deobfuscate s.vault)) c →
    (∀ r, resolvePadding x d = some r →
      exec .payloadDecrypt s = .next { s with
        latched := none, intDone := true, err := .ok, dstLen := BitVec.ofNat 32 (r - 16)
        bufReads := s.bufReads + 1
        buf := s.buf.writeBytes L.dst.toNat ((x.take r).drop 16) }) ∧
    (resolvePadding x d = none →
      exec .payloadDecrypt s = .next { s with
        latched := none, intDone := true, err := .integrityMismatch, dstLen := 0, bufReads := s.bufReads + 1 })

/-- SELFTEST (R129): the result of the harness is written to ST_DONE and ST_PASS, and decides the error; nothing else
changes. -/
def Obligations.SelftestWritesItsResult : Prop :=
  ∀ (s : State) (L : Latched), s.latched = some L →
    exec .selftest s = .next { s with
      latched := none, intDone := true, dstLen := 0, stDone := true, stPass := selftestRun
      err := if selftestRun = true then .ok else .selftestFailure }

/-- R127, R128: the self-test passes, and what it checks. The fixed message and the two published values are R127's, the
message's digest is the published one, and the 49 steps of the key-feedback harness are written out: `key i` and `pt i` go
into step `i + 1`, whose ciphertext is `pt (i + 1)` and decrypts back to `pt i`; the next key is the first 32 bytes of
`pt i` and `key i`; the last ciphertext is the published one. -/
def Obligations.SelftestPassesOnThisHardware : Prop :=
  selftestRun = true ∧
  selftestMessage = "The quick brown fox jumps over the lazy dog".toList.map (fun c => BitVec.ofNat 8 c.toNat) ∧
  selftestDigest.toList = (List.range 64).map (fun i => BitVec.ofNat 8
    (0x07e547d9586f6a73f73fbac0435ed76951218fb7d0c8d788a309d785436bbb642e93a252a954f23912547d1e8a3b5ed6e1bfd7097821233fa0538f3db854fee6
      >>> (8 * (63 - i)))) ∧
  selftestCiphertext.toList =
    (List.range 16).map (fun i => BitVec.ofNat 8 (0x37FE26FF1CF66175F5DDF4C33B97A205 >>> (8 * (15 - i)))) ∧
  hashOf selftestMessage = selftestDigest ∧
  ∃ (key : Nat → Key) (pt : Nat → Block),
    key 0 = Vector.replicate 32 0 ∧ pt 0 = Vector.replicate 16 0 ∧
    (∀ i < 49,
      pt (i + 1) = tfEncrypt (keySchedule (key i)) (pt i) ∧
      tfDecrypt (keySchedule (key i)) (pt (i + 1)) = pt i ∧
      (key (i + 1)).toList = ((pt i).toList ++ (key i).toList).take 32) ∧
    pt 49 = selftestCiphertext

/-! ## The enclave and the self-test state -/

/-- R105: the vault changes at a reset, at a SET_PASSWORD that completes with OK and at an INVALIDATE, as the table says, and
at no other step. -/
def Obligations.VaultFollowsItsStateMachine : Prop :=
  ∀ s t : State, step s = .next t →
    (∀ rest, s.inputs = .reset :: rest → t.keyValid = false ∧ t.vault = Vector.replicate 32 0) ∧
    (∀ a rest, s.inputs = .host a :: rest → t.keyValid = s.keyValid ∧ t.vault = s.vault) ∧
    ((s.inputs = [] ∨ ∃ rest, s.inputs = .engine :: rest) →
      (s.latched = none → t.keyValid = s.keyValid ∧ t.vault = s.vault) ∧
      (∀ L, s.latched = some L →
        (decode L.cmd = .ok .setPassword → t.err = .ok → t.keyValid = true ∧
          t.vault = obfuscate (deriveKey s.cfg.stretchRounds.toNat (s.memRead L.src.toNat L.len.toNat))) ∧
        (decode L.cmd = .ok .invalidate → t.keyValid = false ∧ t.vault = Vector.replicate 32 0) ∧
        (decode L.cmd ≠ .ok .invalidate → (decode L.cmd ≠ .ok .setPassword ∨ t.err ≠ .ok) →
          t.keyValid = s.keyValid ∧ t.vault = s.vault)))

/-- R36: ST_DONE and ST_PASS change only at a reset, which clears both, and at the Engine's step that completes a SELFTEST,
which sets ST_DONE; and the combination (0, 1) never comes about. -/
def Obligations.SelftestStateIsWrittenBySelftestAndReset : Prop :=
  ∀ s t : State, step s = .next t →
    ((t.stDone = s.stDone ∧ t.stPass = s.stPass) ∨
      ((∃ rest, s.inputs = .reset :: rest) ∧ t.stDone = false ∧ t.stPass = false) ∨
      ((s.inputs = [] ∨ ∃ rest, s.inputs = .engine :: rest) ∧
        ∃ L, s.latched = some L ∧ decode L.cmd = .ok .selftest ∧ t.stDone = true)) ∧
    ((s.stPass = true → s.stDone = true) → t.stPass = true → t.stDone = true)

/-- R100: the password's digest is re-hashed `rounds` times, and byte `j` of the key is the sum modulo 256 of bytes `j` and
`j + 32` of the result. -/
def Obligations.KeyDerivationStretchesAndFolds : Prop :=
  ∀ (rounds : Nat) (pw : List Byte) (j : Fin 32),
    ((deriveKey rounds pw)[j.val]).toNat =
      ((((fun e : Digest => hashOf e.toList)^[rounds] (hashOf pw))[j.val]).toNat +
        (((fun e : Digest => hashOf e.toList)^[rounds] (hashOf pw))[j.val + 32]).toNat) % 256

/-- R102: byte `j` is rotated left by `(j mod 7) + 1` on store and right by the same amount on retrieval, and retrieval undoes
store for every key. -/
def Obligations.ObfuscationIsReversible : Prop :=
  ∀ k : Key,
    (∀ j : Fin 32, (obfuscate k)[j.val] = (k[j.val]).rotateLeft (j.val % 7 + 1) ∧
      (deobfuscate k)[j.val] = (k[j.val]).rotateRight (j.val % 7 + 1)) ∧
    deobfuscate (obfuscate k) = k

/-! ## The algorithms -/

/-- R88: encryption and decryption of a block undo each other under every key. -/
def Obligations.BlockCipherIsABijection : Prop :=
  ∀ (k : Key) (b : Block),
    tfDecrypt (keySchedule k) (tfEncrypt (keySchedule k) b) = b ∧
    tfEncrypt (keySchedule k) (tfDecrypt (keySchedule k) b) = b

/-- R79: the two printed tables are what the construction of R78 gives, and each is a permutation. -/
def Obligations.FixedPermutationsAreBuiltFromTheirTables : Prop :=
  (∀ x : Byte, q0 x = permuteByTables q0Nibbles x ∧ q1 x = permuteByTables q1Nibbles x) ∧
  Function.Bijective q0 ∧ Function.Bijective q1

/-- R71: for every 128-byte block, the schedule is sixteen big-endian words of the block (R70) and then the recurrence. -/
def Obligations.MessageScheduleFollowsItsRecurrence : Prop :=
  ∀ block : List Byte, block.length = 128 →
    (messageSchedule block).length = 80 ∧
    (∀ t < 16, (messageSchedule block)[t]? = some (be64 ((block.drop (8 * t)).take 8))) ∧
    ∀ t, 16 ≤ t → t < 80 →
      (messageSchedule block).getD t 0 =
        smallSigma1 ((messageSchedule block).getD (t - 2) 0) + (messageSchedule block).getD (t - 7) 0 +
          smallSigma0 ((messageSchedule block).getD (t - 15) 0) + (messageSchedule block).getD (t - 16) 0

/-- R65, R67, R72: the six functions, and the digest of any message. The running state `hs i` starts at the initial values
and is carried from block to block of the padded message; in block `i` the working registers `v i t` start at `hs i` and take
eighty rounds with the constants and the block's schedule (R66, R71), and are then added to the running state. The digest is
the final state, most significant byte first (R73). -/
def Obligations.HashCarriesItsStateFromBlockToBlock : Prop :=
  (∀ x y z : Word64,
    choose x y z = (x &&& y) ^^^ (~~~x &&& z) ∧
    majority x y z = (x &&& y) ^^^ (x &&& z) ^^^ (y &&& z) ∧
    bigSigma0 x = x.rotateRight 28 ^^^ x.rotateRight 34 ^^^ x.rotateRight 39 ∧
    bigSigma1 x = x.rotateRight 14 ^^^ x.rotateRight 18 ^^^ x.rotateRight 41 ∧
    smallSigma0 x = x.rotateRight 1 ^^^ x.rotateRight 8 ^^^ (x >>> 7) ∧
    smallSigma1 x = x.rotateRight 19 ^^^ x.rotateRight 61 ^^^ (x >>> 6)) ∧
  ∀ x : List Byte, ∃ (hs : Nat → HashRegs) (v : Nat → Nat → HashRegs),
    hs 0 = ⟨0x6A09E667F3BCC908, 0xBB67AE8584CAA73B, 0x3C6EF372FE94F82B, 0xA54FF53A5F1D36F1,
      0x510E527FADE682D1, 0x9B05688C2B3E6C1F, 0x1F83D9ABFB41BD6B, 0x5BE0CD19137E2179⟩ ∧
    (∀ i < (pad x).length / 128,
      v i 0 = hs i ∧
      (∀ t < 80, ∀ t1 t2 : Word64,
        t1 = (v i t).h + bigSigma1 (v i t).e + choose (v i t).e (v i t).f (v i t).g + roundConstants.getD t 0 +
          (messageSchedule (((pad x).drop (128 * i)).take 128)).getD t 0 →
        t2 = bigSigma0 (v i t).a + majority (v i t).a (v i t).b (v i t).c →
        v i (t + 1) = ⟨t1 + t2, (v i t).a, (v i t).b, (v i t).c, (v i t).d + t1, (v i t).e, (v i t).f, (v i t).g⟩) ∧
      hs (i + 1) = ⟨(hs i).a + (v i 80).a, (hs i).b + (v i 80).b, (hs i).c + (v i 80).c, (hs i).d + (v i 80).d,
        (hs i).e + (v i 80).e, (hs i).f + (v i 80).f, (hs i).g + (v i 80).g, (hs i).h + (v i 80).h⟩) ∧
    ∀ N, N = (pad x).length / 128 → (hashOf x).toList =
      [(hs N).a, (hs N).b, (hs N).c, (hs N).d, (hs N).e, (hs N).f, (hs N).g, (hs N).h].flatMap
        (fun w => (List.range 8).map fun b => w.extractLsb' (8 * (7 - b)) 8)

/-- R94, R95: each ciphertext block is the encryption of its plaintext block exclusive-ored with the ciphertext block before
it, the first with the zero IV, and decryption reverses this; an empty input gives an empty output. -/
def Obligations.ChainedModeChainsEachBlock : Prop :=
  ∀ (ks : KeySchedule) (x : List Byte),
    ((cbcEnc ks x).length = ceil16 x.length ∧
      ∀ i, 16 * i < ceil16 x.length →
        ((cbcEnc ks x).drop (16 * i)).take 16 =
          (tfEncrypt ks (xorBlock (bytesToVector 16 (((zeroExt x).drop (16 * i)).take 16))
            (if i = 0 then Vector.replicate 16 0
              else bytesToVector 16 (((cbcEnc ks x).drop (16 * (i - 1))).take 16)))).toList) ∧
    (x.length % 16 = 0 → (cbcDec ks x).length = x.length ∧
      ∀ i, 16 * i < x.length →
        ((cbcDec ks x).drop (16 * i)).take 16 =
          (xorBlock (tfDecrypt ks (bytesToVector 16 ((x.drop (16 * i)).take 16)))
            (if i = 0 then Vector.replicate 16 0
              else bytesToVector 16 ((x.drop (16 * (i - 1))).take 16))).toList)

/-- R96: the four laws of the chained mode. -/
def Obligations.ChainedModeLaws : Prop :=
  ∀ k : Key,
    (∀ x, (cbcEnc (keySchedule k) x).length = ceil16 x.length) ∧
    (∀ x, cbcDec (keySchedule k) (cbcEnc (keySchedule k) x) = zeroExt x) ∧
    (∀ y, y.length % 16 = 0 → cbcEnc (keySchedule k) (cbcDec (keySchedule k) y) = y) ∧
    (∀ (x x' : List Byte) (n : Nat), (zeroExt x).take (16 * n) = (zeroExt x').take (16 * n) →
      (cbcEnc (keySchedule k) x).take (16 * n) = (cbcEnc (keySchedule k) x').take (16 * n))

/-- R68: the padded message is the message, the byte 0x80, the least number of zero bytes that makes a whole number of
128-byte blocks, and the bit length in 16 bytes. -/
def Obligations.PaddingFillsWholeBlocks : Prop :=
  ∀ x : List Byte, ∃ z : Nat,
    pad x = x ++ [0x80] ++ List.replicate z 0 ++ toBE128 (8 * x.length) ∧
    (x.length + 1 + z + 16) % 128 = 0 ∧ (∀ z' < z, (x.length + 1 + z' + 16) % 128 ≠ 0) ∧
    (pad x).length % 128 = 0 ∧ z = (111 + 128 * x.length - x.length) % 128

/-- R116: the padding resolution finds the longest candidate length whose digest matches and after which every byte is zero,
and finds none where there is none. -/
def Obligations.ResolvePaddingFindsTheLongestMatch : Prop :=
  ∀ (x : List Byte) (d : Digest), 16 ≤ x.length →
    (∀ r, resolvePadding x d = some r ↔
      (x.length - 15 ≤ r ∧ r ≤ x.length ∧ x.drop r = zeros (x.length - r) ∧ hashOf (x.take r) = d ∧
        ∀ n, r < n → n ≤ x.length → hashOf (x.take n) ≠ d)) ∧
    (resolvePadding x d = none ↔
      ∀ n, x.length - 15 ≤ n → n ≤ x.length → x.drop n = zeros (x.length - n) → hashOf (x.take n) ≠ d)

/-- R114: payloads of one plaintext with different tokens differ, under every key and marker. -/
def Obligations.PayloadsWithDifferentTokensDiffer : Prop :=
  ∀ (m : List Byte) (k : Key) (t t' : Token) (x : List Byte), t ≠ t' →
    payloadOf m (keySchedule k) (t.toList ++ x) ≠ payloadOf m (keySchedule k) (t'.toList ++ x)

/-- R119: the round trip of a non-empty plaintext. PAYLOAD_ENCRYPT with a token `tok` and then PAYLOAD_DECRYPT of its output,
under the same vault and marker, ends with OK and writes the plaintext followed by `j` zero bytes, where `j` is 0 unless the
digests of token, plaintext and `j` zero bytes collide within the padding; so without such a collision it writes exactly the
plaintext. The second command is issued by latching it at the first one's end. -/
def Obligations.PayloadRoundTrip : Prop :=
  ∀ (s : State) (L L' : Latched) (tok : Token) (txt : List Byte),
    s.latched = some L → s.stPass = true → s.keyValid = true → L.len ≠ 0 →
    L.src.toNat + L.len.toNat ≤ s.cfg.bufBytes →
    L.dst.toNat + (s.cfg.marker.length + 64 + ceil16 (16 + L.len.toNat)) ≤ s.cfg.bufBytes →
    s.trngAnswer = .bytes tok → txt = s.memRead L.src.toNat L.len.toNat →
    L'.src = L.dst → L'.len.toNat = s.cfg.marker.length + 64 + ceil16 (16 + L.len.toNat) →
    L'.dst.toNat + (ceil16 (16 + L.len.toNat) - 16) ≤ s.cfg.bufBytes →
    ∃ (t u : State) (j : Nat), exec .payloadEncrypt s = .next t ∧ t.err = .ok ∧
      exec .payloadDecrypt { t with latched := some L' } = .next u ∧ u.err = .ok ∧
      16 + txt.length + j ≤ ceil16 (16 + txt.length) ∧ u.dstLen.toNat = txt.length + j ∧
      (∀ i < txt.length + j, u.buf.read (L'.dst.toNat + i) = (txt ++ zeros j)[i]?) ∧
      hashOf (tok.toList ++ txt ++ zeros j) = hashOf (tok.toList ++ txt) ∧
      (∀ n, j < n → 16 + txt.length + n ≤ ceil16 (16 + txt.length) →
        hashOf (tok.toList ++ txt ++ zeros n) ≠ hashOf (tok.toList ++ txt)) ∧
      ((∀ n, 1 ≤ n → 16 + txt.length + n ≤ ceil16 (16 + txt.length) →
        hashOf (tok.toList ++ txt ++ zeros n) ≠ hashOf (tok.toList ++ txt)) → j = 0)
end

