-- ==== Sys2Proof/Laws/BlockCipher.lean ====
section
/-! SUPPORT. A word and its four bytes, a block and its four words: each gives the other back (00_scope.md R14;
41_block_cipher.md R77). -/

namespace Sys2Proof.Machine

/-- A word is its four bytes, least significant first (R14). -/
theorem le32_wordByte (w : Word32) : le32 (wordByte w 0) (wordByte w 1) (wordByte w 2) (wordByte w 3) = w := by
  apply BitVec.eq_of_getLsbD_eq
  intro i hi
  simp only [le32, wordByte, BitVec.getLsbD_append, BitVec.getLsbD_extractLsb']
  by_cases h1 : i < 8
  · simp [h1]
  · by_cases h2 : i - 8 < 8
    · simp [h1, h2]; congr 1; omega
    · by_cases h3 : i - 8 - 8 < 8
      · simp [h1, h2, h3]; congr 1; omega
      · have h4 : i - 8 - 8 - 8 < 8 := by omega
        simp [h1, h2, h3, h4]; congr 1; omega

@[simp] theorem wordByte_le32_0 (a b c d : Byte) : wordByte (le32 a b c d) 0 = a := by
  apply BitVec.eq_of_getLsbD_eq
  intro i hi
  simp only [le32, wordByte, BitVec.getLsbD_append, BitVec.getLsbD_extractLsb']
  simp [hi]

@[simp] theorem wordByte_le32_1 (a b c d : Byte) : wordByte (le32 a b c d) 1 = b := by
  apply BitVec.eq_of_getLsbD_eq
  intro i hi
  simp only [le32, wordByte, BitVec.getLsbD_append, BitVec.getLsbD_extractLsb']
  simp [hi]

@[simp] theorem wordByte_le32_2 (a b c d : Byte) : wordByte (le32 a b c d) 2 = c := by
  apply BitVec.eq_of_getLsbD_eq
  intro i hi
  have h1 : ¬ 16 + i < 8 := by omega
  have h2 : ¬ 16 + i - 8 < 8 := by omega
  have h3 : 16 + i - 8 - 8 = i := by omega
  simp only [le32, wordByte, BitVec.getLsbD_append, BitVec.getLsbD_extractLsb']
  simp [hi, h1, h2, h3]

@[simp] theorem wordByte_le32_3 (a b c d : Byte) : wordByte (le32 a b c d) 3 = d := by
  apply BitVec.eq_of_getLsbD_eq
  intro i hi
  have h1 : ¬ 24 + i < 8 := by omega
  have h2 : ¬ 24 + i - 8 < 8 := by omega
  have h3 : ¬ 24 + i - 8 - 8 < 8 := by omega
  have h4 : 24 + i - 8 - 8 - 8 = i := by omega
  simp only [le32, wordByte, BitVec.getLsbD_append, BitVec.getLsbD_extractLsb']
  simp [hi, h1, h2, h3, h4]

@[simp] theorem blockWords_wordsBlock (v : Quad) : blockWords (wordsBlock v) = v := by
  cases v
  simp [blockWords, wordsBlock, le32_wordByte]

@[simp] theorem wordsBlock_blockWords (b : Block) : wordsBlock (blockWords b) = b := by
  ext i hi
  have : i = 0 ∨ i = 1 ∨ i = 2 ∨ i = 3 ∨ i = 4 ∨ i = 5 ∨ i = 6 ∨ i = 7 ∨ i = 8 ∨ i = 9 ∨ i = 10 ∨ i = 11 ∨ i = 12 ∨
      i = 13 ∨ i = 14 ∨ i = 15 := by omega
  rcases this with h | h | h | h | h | h | h | h | h | h | h | h | h | h | h | h <;> subst h <;>
    simp [blockWords, wordsBlock]

end Sys2Proof.Machine
end

