-- ==== Sys2Proof/Laws/Operands.lean ====
section
/-! SUPPORT. The range check, `ceil16`, and the byte counts of the operand operations (20_memory.md R49;
30_encoding.md R58). -/

namespace Sys2Proof.Machine

theorem inBounds_iff {c : Params} {a n : Nat} : inBounds c a n = true ↔ a + n ≤ c.bufBytes := by
  simp [inBounds]

theorem srcInBounds_iff {c : Params} {L : Latched} :
    L.srcInBounds c = true ↔ L.src.toNat + L.len.toNat ≤ c.bufBytes := inBounds_iff

theorem dstInBounds_iff {c : Params} {L : Latched} {n : Nat} :
    L.dstInBounds c n = true ↔ L.dst.toNat + n ≤ c.bufBytes := inBounds_iff

theorem le_ceil16 (n : Nat) : n ≤ ceil16 n := by unfold ceil16; omega

theorem ceil16_lt (n : Nat) : ceil16 n < n + 16 := by unfold ceil16; omega

theorem ceil16_mod (n : Nat) : ceil16 n % 16 = 0 := by unfold ceil16; omega

theorem ceil16_of_mod {n : Nat} (h : n % 16 = 0) : ceil16 n = n := by unfold ceil16; omega

@[simp] theorem zeros_length (n : Nat) : (zeros n).length = n := by simp [zeros]

@[simp] theorem leBytes_length (w : Nat) (v : Word32) : (leBytes w v).length = w := by simp [leBytes]

@[simp] theorem toBE64_length (v : Word64) : (toBE64 v).length = 8 := rfl

@[simp] theorem toBE128_length (n : Nat) : (toBE128 n).length = 16 := by simp [toBE128]

@[simp] theorem memRead_length (s : State) (a n : Nat) : (s.memRead a n).length = n := by simp [State.memRead]

@[simp] theorem input_length (s : State) (L : Latched) : (s.input L).length = L.len.toNat := by
  simp [State.input, Latched.length]

/-- A byte sequence of the right size is read whole. -/
theorem bytesToVector_toList {n : Nat} {bs : List Byte} (h : bs.length = n) :
    (bytesToVector n bs).toList = bs := by
  subst h
  apply List.ext_getElem
  · simp
  · intro i h1 h2
    simp [bytesToVector, List.getD_eq_getElem?_getD]

/-- The bytes of a fixed-size value give it back. -/
theorem bytesToVector_of_toList {n : Nat} (v : Vector Byte n) : bytesToVector n v.toList = v := by
  ext i hi
  simp [bytesToVector, List.getD_eq_getElem?_getD]

/-- Each byte of `MemRead` is the byte a read finds at its offset (R15, R48). -/
theorem memRead_getElem (s : State) (a n i : Nat) (h : i < n) :
    (s.memRead a n)[i]'(by simpa using h) = s.bufByte (a + i) := by
  simp [State.memRead]

/-- A byte that something has written since reset reads as it was written (R48). -/
theorem bufByte_of_read {s : State} {a : Nat} {b : Byte} (h : s.buf.read a = some b) : s.bufByte a = b := by
  simp [State.bufByte, h]

/-- A byte that nothing has written reads as a draw of this read (R48). -/
theorem bufByte_of_unwritten {s : State} {a : Nat} (h : s.buf.read a = none) :
    s.bufByte a = Config.unwrittenByte s.bufReads a := by
  simp [State.bufByte, h]

end Sys2Proof.Machine
end

