-- ==== Sys2Proof/Laws/HashEngine.lean ====
section
/-! SUPPORT. The pieces a byte sequence is cut into, and the size of a digest (40_hash_engine.md R70, R73). -/

namespace Sys2Proof.Machine

@[simp] theorem pieces_length (k n : Nat) (bs : List Byte) : (pieces k n bs).length = n := by
  induction n generalizing bs with
  | zero => rfl
  | succ n ih => simp [pieces, ih]

/-- Cutting a byte sequence into whole pieces loses no byte. -/
theorem pieces_flatten (k n : Nat) (bs : List Byte) (h : bs.length = k * n) : (pieces k n bs).flatten = bs := by
  induction n generalizing bs with
  | zero => exact (List.length_eq_zero_iff.1 (by simpa using h)).symm
  | succ n ih =>
    rw [pieces, List.flatten_cons, ih _ (by simp [h, Nat.mul_succ]), List.take_append_drop]

/-- Every piece of a whole number of pieces has the piece's size. -/
theorem length_of_mem_pieces (k n : Nat) (bs : List Byte) (h : bs.length = k * n) :
    ∀ p ∈ pieces k n bs, p.length = k := by
  induction n generalizing bs with
  | zero => simp [pieces]
  | succ n ih =>
    intro p hp
    rcases List.mem_cons.1 hp with rfl | hp
    · simp [h, Nat.mul_succ]
    · exact ih _ (by simp [h, Nat.mul_succ]) p hp

theorem hashOf_toList_length (x : List Byte) : (hashOf x).toList.length = 64 := by simp

end Sys2Proof.Machine
end

