-- ==== Sys2Proof/Laws/ChainedMode.lean ====
section
/-! SUPPORT. The sizes of the chained mode's outputs and of a payload (42_chained_mode.md R93 to R96;
44_payload_framing.md R110). -/

namespace Sys2Proof.Machine

@[simp] theorem blockBytes_length (bs : List Block) : (blockBytes bs).length = 16 * bs.length := by
  induction bs with
  | nil => rfl
  | cons b bs ih => simp [blockBytes] at ih ⊢; omega

@[simp] theorem cbcEncBlocks_length (ks : KeySchedule) (prev : Block) (ps : List Block) :
    (cbcEncBlocks ks prev ps).length = ps.length := by
  induction ps generalizing prev with
  | nil => rfl
  | cons p ps ih => simp [cbcEncBlocks, ih]

@[simp] theorem cbcDecBlocks_length (ks : KeySchedule) (prev : Block) (cs : List Block) :
    (cbcDecBlocks ks prev cs).length = cs.length := by
  induction cs generalizing prev with
  | nil => rfl
  | cons c cs ih => simp [cbcDecBlocks, ih]

@[simp] theorem blocksOf_length (n : Nat) (x : List Byte) : (blocksOf n x).length = n := by simp [blocksOf]

theorem zeroExt_length (x : List Byte) : (zeroExt x).length = ceil16 x.length := by
  have := le_ceil16 x.length
  simp [zeroExt]; omega

theorem cbcEnc_length (ks : KeySchedule) (x : List Byte) : (cbcEnc ks x).length = ceil16 x.length := by
  have := ceil16_mod x.length
  simp [cbcEnc]; omega

theorem cbcDec_length (ks : KeySchedule) (y : List Byte) : (cbcDec ks y).length = 16 * (y.length / 16) := by
  simp [cbcDec]

/-- A payload's length (R110). -/
theorem payloadOf_length (marker : List Byte) (ks : KeySchedule) (t : Token) (x : List Byte) :
    (payloadOf marker ks (t.toList ++ x)).length = payloadLength marker.length x.length := by
  simp [payloadOf, payloadLength, cbcEnc_length]; omega

/-- A length that ResolvePadding finds is one of its candidates (R116). -/
theorem resolveFrom_le (x : List Byte) (d : Digest) : ∀ {k n r : Nat}, resolveFrom x d k n = some r → r ≤ n := by
  intro k
  induction k with
  | zero => intro n r h; simp [resolveFrom] at h
  | succ k ih =>
    intro n r h
    rw [resolveFrom] at h
    split at h
    · cases h
    · split at h
      · cases h; exact Nat.le_refl _
      · exact Nat.le_trans (ih h) (Nat.sub_le _ _)

end Sys2Proof.Machine
end

