-- ==== Sys2Proof/Laws/State.lean ====
section
/-! SUPPORT. What each update of the state leaves in each field: one lemma per field per update, so that no later proof
unfolds a record update. -/

namespace Sys2Proof.Machine.State

variable (s : State)

@[simp] theorem complete_buf (c : ErrCode) (n : Nat) : (s.complete c n).buf = s.buf := rfl
@[simp] theorem complete_srcAddr (c : ErrCode) (n : Nat) : (s.complete c n).srcAddr = s.srcAddr := rfl
@[simp] theorem complete_srcLen (c : ErrCode) (n : Nat) : (s.complete c n).srcLen = s.srcLen := rfl
@[simp] theorem complete_dstAddr (c : ErrCode) (n : Nat) : (s.complete c n).dstAddr = s.dstAddr := rfl
@[simp] theorem complete_dstLen (c : ErrCode) (n : Nat) : (s.complete c n).dstLen = BitVec.ofNat 32 n := rfl
@[simp] theorem complete_latched (c : ErrCode) (n : Nat) : (s.complete c n).latched = none := rfl
@[simp] theorem complete_vault (c : ErrCode) (n : Nat) : (s.complete c n).vault = s.vault := rfl
@[simp] theorem complete_keyValid (c : ErrCode) (n : Nat) : (s.complete c n).keyValid = s.keyValid := rfl
@[simp] theorem complete_stDone (c : ErrCode) (n : Nat) : (s.complete c n).stDone = s.stDone := rfl
@[simp] theorem complete_stPass (c : ErrCode) (n : Nat) : (s.complete c n).stPass = s.stPass := rfl
@[simp] theorem complete_err (c : ErrCode) (n : Nat) : (s.complete c n).err = c := rfl
@[simp] theorem complete_intDone (c : ErrCode) (n : Nat) : (s.complete c n).intDone = true := rfl
@[simp] theorem complete_intIgn (c : ErrCode) (n : Nat) : (s.complete c n).intIgn = s.intIgn := rfl
@[simp] theorem complete_doneIe (c : ErrCode) (n : Nat) : (s.complete c n).doneIe = s.doneIe := rfl
@[simp] theorem complete_ignIe (c : ErrCode) (n : Nat) : (s.complete c n).ignIe = s.ignIe := rfl
@[simp] theorem complete_cfg (c : ErrCode) (n : Nat) : (s.complete c n).cfg = s.cfg := rfl
@[simp] theorem complete_inputs (c : ErrCode) (n : Nat) : (s.complete c n).inputs = s.inputs := rfl
@[simp] theorem complete_trng (c : ErrCode) (n : Nat) : (s.complete c n).trng = s.trng := rfl
@[simp] theorem complete_trngDraws (c : ErrCode) (n : Nat) : (s.complete c n).trngDraws = s.trngDraws := rfl
@[simp] theorem complete_bufReads (c : ErrCode) (n : Nat) : (s.complete c n).bufReads = s.bufReads := rfl
@[simp] theorem complete_response (c : ErrCode) (n : Nat) : (s.complete c n).response = s.response := rfl
@[simp] theorem complete_busErrors (c : ErrCode) (n : Nat) : (s.complete c n).busErrors = s.busErrors := rfl

@[simp] theorem raise_buf (c : ErrCode) : (s.raise c).buf = s.buf := rfl
@[simp] theorem raise_srcAddr (c : ErrCode) : (s.raise c).srcAddr = s.srcAddr := rfl
@[simp] theorem raise_srcLen (c : ErrCode) : (s.raise c).srcLen = s.srcLen := rfl
@[simp] theorem raise_dstAddr (c : ErrCode) : (s.raise c).dstAddr = s.dstAddr := rfl
@[simp] theorem raise_dstLen (c : ErrCode) : (s.raise c).dstLen = 0 := rfl
@[simp] theorem raise_latched (c : ErrCode) : (s.raise c).latched = none := rfl
@[simp] theorem raise_vault (c : ErrCode) : (s.raise c).vault = s.vault := rfl
@[simp] theorem raise_keyValid (c : ErrCode) : (s.raise c).keyValid = s.keyValid := rfl
@[simp] theorem raise_stDone (c : ErrCode) : (s.raise c).stDone = s.stDone := rfl
@[simp] theorem raise_stPass (c : ErrCode) : (s.raise c).stPass = s.stPass := rfl
@[simp] theorem raise_err (c : ErrCode) : (s.raise c).err = c := rfl
@[simp] theorem raise_intDone (c : ErrCode) : (s.raise c).intDone = true := rfl
@[simp] theorem raise_intIgn (c : ErrCode) : (s.raise c).intIgn = s.intIgn := rfl
@[simp] theorem raise_doneIe (c : ErrCode) : (s.raise c).doneIe = s.doneIe := rfl
@[simp] theorem raise_ignIe (c : ErrCode) : (s.raise c).ignIe = s.ignIe := rfl
@[simp] theorem raise_cfg (c : ErrCode) : (s.raise c).cfg = s.cfg := rfl
@[simp] theorem raise_inputs (c : ErrCode) : (s.raise c).inputs = s.inputs := rfl
@[simp] theorem raise_trng (c : ErrCode) : (s.raise c).trng = s.trng := rfl
@[simp] theorem raise_trngDraws (c : ErrCode) : (s.raise c).trngDraws = s.trngDraws := rfl
@[simp] theorem raise_bufReads (c : ErrCode) : (s.raise c).bufReads = s.bufReads := rfl
@[simp] theorem raise_response (c : ErrCode) : (s.raise c).response = s.response := rfl
@[simp] theorem raise_busErrors (c : ErrCode) : (s.raise c).busErrors = s.busErrors := rfl

@[simp] theorem succeed_buf (n : Nat) : (s.succeed n).buf = s.buf := rfl
@[simp] theorem succeed_srcAddr (n : Nat) : (s.succeed n).srcAddr = s.srcAddr := rfl
@[simp] theorem succeed_srcLen (n : Nat) : (s.succeed n).srcLen = s.srcLen := rfl
@[simp] theorem succeed_dstAddr (n : Nat) : (s.succeed n).dstAddr = s.dstAddr := rfl
@[simp] theorem succeed_dstLen (n : Nat) : (s.succeed n).dstLen = BitVec.ofNat 32 n := rfl
@[simp] theorem succeed_latched (n : Nat) : (s.succeed n).latched = none := rfl
@[simp] theorem succeed_vault (n : Nat) : (s.succeed n).vault = s.vault := rfl
@[simp] theorem succeed_keyValid (n : Nat) : (s.succeed n).keyValid = s.keyValid := rfl
@[simp] theorem succeed_stDone (n : Nat) : (s.succeed n).stDone = s.stDone := rfl
@[simp] theorem succeed_stPass (n : Nat) : (s.succeed n).stPass = s.stPass := rfl
@[simp] theorem succeed_err (n : Nat) : (s.succeed n).err = .ok := rfl
@[simp] theorem succeed_intDone (n : Nat) : (s.succeed n).intDone = true := rfl
@[simp] theorem succeed_intIgn (n : Nat) : (s.succeed n).intIgn = s.intIgn := rfl
@[simp] theorem succeed_doneIe (n : Nat) : (s.succeed n).doneIe = s.doneIe := rfl
@[simp] theorem succeed_ignIe (n : Nat) : (s.succeed n).ignIe = s.ignIe := rfl
@[simp] theorem succeed_cfg (n : Nat) : (s.succeed n).cfg = s.cfg := rfl
@[simp] theorem succeed_inputs (n : Nat) : (s.succeed n).inputs = s.inputs := rfl
@[simp] theorem succeed_trng (n : Nat) : (s.succeed n).trng = s.trng := rfl
@[simp] theorem succeed_trngDraws (n : Nat) : (s.succeed n).trngDraws = s.trngDraws := rfl
@[simp] theorem succeed_bufReads (n : Nat) : (s.succeed n).bufReads = s.bufReads := rfl
@[simp] theorem succeed_response (n : Nat) : (s.succeed n).response = s.response := rfl
@[simp] theorem succeed_busErrors (n : Nat) : (s.succeed n).busErrors = s.busErrors := rfl

@[simp] theorem illegalCommand_buf : s.illegalCommand.buf = s.buf := rfl
@[simp] theorem illegalCommand_srcAddr : s.illegalCommand.srcAddr = s.srcAddr := rfl
@[simp] theorem illegalCommand_srcLen : s.illegalCommand.srcLen = s.srcLen := rfl
@[simp] theorem illegalCommand_dstAddr : s.illegalCommand.dstAddr = s.dstAddr := rfl
@[simp] theorem illegalCommand_dstLen : s.illegalCommand.dstLen = 0 := rfl
@[simp] theorem illegalCommand_latched : s.illegalCommand.latched = none := rfl
@[simp] theorem illegalCommand_vault : s.illegalCommand.vault = s.vault := rfl
@[simp] theorem illegalCommand_keyValid : s.illegalCommand.keyValid = s.keyValid := rfl
@[simp] theorem illegalCommand_stDone : s.illegalCommand.stDone = s.stDone := rfl
@[simp] theorem illegalCommand_stPass : s.illegalCommand.stPass = s.stPass := rfl
@[simp] theorem illegalCommand_err : s.illegalCommand.err = .illegalCmd := rfl
@[simp] theorem illegalCommand_intDone : s.illegalCommand.intDone = true := rfl
@[simp] theorem illegalCommand_intIgn : s.illegalCommand.intIgn = s.intIgn := rfl
@[simp] theorem illegalCommand_doneIe : s.illegalCommand.doneIe = s.doneIe := rfl
@[simp] theorem illegalCommand_ignIe : s.illegalCommand.ignIe = s.ignIe := rfl
@[simp] theorem illegalCommand_cfg : s.illegalCommand.cfg = s.cfg := rfl
@[simp] theorem illegalCommand_inputs : s.illegalCommand.inputs = s.inputs := rfl
@[simp] theorem illegalCommand_trng : s.illegalCommand.trng = s.trng := rfl
@[simp] theorem illegalCommand_trngDraws : s.illegalCommand.trngDraws = s.trngDraws := rfl
@[simp] theorem illegalCommand_bufReads : s.illegalCommand.bufReads = s.bufReads := rfl
@[simp] theorem illegalCommand_response : s.illegalCommand.response = s.response := rfl
@[simp] theorem illegalCommand_busErrors : s.illegalCommand.busErrors = s.busErrors := rfl

@[simp] theorem noteRead_buf : s.noteRead.buf = s.buf := rfl
@[simp] theorem noteRead_srcAddr : s.noteRead.srcAddr = s.srcAddr := rfl
@[simp] theorem noteRead_srcLen : s.noteRead.srcLen = s.srcLen := rfl
@[simp] theorem noteRead_dstAddr : s.noteRead.dstAddr = s.dstAddr := rfl
@[simp] theorem noteRead_dstLen : s.noteRead.dstLen = s.dstLen := rfl
@[simp] theorem noteRead_latched : s.noteRead.latched = s.latched := rfl
@[simp] theorem noteRead_vault : s.noteRead.vault = s.vault := rfl
@[simp] theorem noteRead_keyValid : s.noteRead.keyValid = s.keyValid := rfl
@[simp] theorem noteRead_stDone : s.noteRead.stDone = s.stDone := rfl
@[simp] theorem noteRead_stPass : s.noteRead.stPass = s.stPass := rfl
@[simp] theorem noteRead_err : s.noteRead.err = s.err := rfl
@[simp] theorem noteRead_intDone : s.noteRead.intDone = s.intDone := rfl
@[simp] theorem noteRead_intIgn : s.noteRead.intIgn = s.intIgn := rfl
@[simp] theorem noteRead_doneIe : s.noteRead.doneIe = s.doneIe := rfl
@[simp] theorem noteRead_ignIe : s.noteRead.ignIe = s.ignIe := rfl
@[simp] theorem noteRead_cfg : s.noteRead.cfg = s.cfg := rfl
@[simp] theorem noteRead_inputs : s.noteRead.inputs = s.inputs := rfl
@[simp] theorem noteRead_trng : s.noteRead.trng = s.trng := rfl
@[simp] theorem noteRead_trngDraws : s.noteRead.trngDraws = s.trngDraws := rfl
@[simp] theorem noteRead_bufReads : s.noteRead.bufReads = s.bufReads + 1 := rfl
@[simp] theorem noteRead_response : s.noteRead.response = s.response := rfl
@[simp] theorem noteRead_busErrors : s.noteRead.busErrors = s.busErrors := rfl

@[simp] theorem memWrite_buf (a : Nat) (v : List Byte) : (s.memWrite a v).buf = s.buf.writeBytes a v := rfl
@[simp] theorem memWrite_srcAddr (a : Nat) (v : List Byte) : (s.memWrite a v).srcAddr = s.srcAddr := rfl
@[simp] theorem memWrite_srcLen (a : Nat) (v : List Byte) : (s.memWrite a v).srcLen = s.srcLen := rfl
@[simp] theorem memWrite_dstAddr (a : Nat) (v : List Byte) : (s.memWrite a v).dstAddr = s.dstAddr := rfl
@[simp] theorem memWrite_dstLen (a : Nat) (v : List Byte) : (s.memWrite a v).dstLen = s.dstLen := rfl
@[simp] theorem memWrite_latched (a : Nat) (v : List Byte) : (s.memWrite a v).latched = s.latched := rfl
@[simp] theorem memWrite_vault (a : Nat) (v : List Byte) : (s.memWrite a v).vault = s.vault := rfl
@[simp] theorem memWrite_keyValid (a : Nat) (v : List Byte) : (s.memWrite a v).keyValid = s.keyValid := rfl
@[simp] theorem memWrite_stDone (a : Nat) (v : List Byte) : (s.memWrite a v).stDone = s.stDone := rfl
@[simp] theorem memWrite_stPass (a : Nat) (v : List Byte) : (s.memWrite a v).stPass = s.stPass := rfl
@[simp] theorem memWrite_err (a : Nat) (v : List Byte) : (s.memWrite a v).err = s.err := rfl
@[simp] theorem memWrite_intDone (a : Nat) (v : List Byte) : (s.memWrite a v).intDone = s.intDone := rfl
@[simp] theorem memWrite_intIgn (a : Nat) (v : List Byte) : (s.memWrite a v).intIgn = s.intIgn := rfl
@[simp] theorem memWrite_doneIe (a : Nat) (v : List Byte) : (s.memWrite a v).doneIe = s.doneIe := rfl
@[simp] theorem memWrite_ignIe (a : Nat) (v : List Byte) : (s.memWrite a v).ignIe = s.ignIe := rfl
@[simp] theorem memWrite_cfg (a : Nat) (v : List Byte) : (s.memWrite a v).cfg = s.cfg := rfl
@[simp] theorem memWrite_inputs (a : Nat) (v : List Byte) : (s.memWrite a v).inputs = s.inputs := rfl
@[simp] theorem memWrite_trng (a : Nat) (v : List Byte) : (s.memWrite a v).trng = s.trng := rfl
@[simp] theorem memWrite_trngDraws (a : Nat) (v : List Byte) : (s.memWrite a v).trngDraws = s.trngDraws := rfl
@[simp] theorem memWrite_bufReads (a : Nat) (v : List Byte) : (s.memWrite a v).bufReads = s.bufReads := rfl
@[simp] theorem memWrite_response (a : Nat) (v : List Byte) : (s.memWrite a v).response = s.response := rfl
@[simp] theorem memWrite_busErrors (a : Nat) (v : List Byte) : (s.memWrite a v).busErrors = s.busErrors := rfl

@[simp] theorem noteTrng_buf : s.noteTrng.buf = s.buf := rfl
@[simp] theorem noteTrng_srcAddr : s.noteTrng.srcAddr = s.srcAddr := rfl
@[simp] theorem noteTrng_srcLen : s.noteTrng.srcLen = s.srcLen := rfl
@[simp] theorem noteTrng_dstAddr : s.noteTrng.dstAddr = s.dstAddr := rfl
@[simp] theorem noteTrng_dstLen : s.noteTrng.dstLen = s.dstLen := rfl
@[simp] theorem noteTrng_latched : s.noteTrng.latched = s.latched := rfl
@[simp] theorem noteTrng_vault : s.noteTrng.vault = s.vault := rfl
@[simp] theorem noteTrng_keyValid : s.noteTrng.keyValid = s.keyValid := rfl
@[simp] theorem noteTrng_stDone : s.noteTrng.stDone = s.stDone := rfl
@[simp] theorem noteTrng_stPass : s.noteTrng.stPass = s.stPass := rfl
@[simp] theorem noteTrng_err : s.noteTrng.err = s.err := rfl
@[simp] theorem noteTrng_intDone : s.noteTrng.intDone = s.intDone := rfl
@[simp] theorem noteTrng_intIgn : s.noteTrng.intIgn = s.intIgn := rfl
@[simp] theorem noteTrng_doneIe : s.noteTrng.doneIe = s.doneIe := rfl
@[simp] theorem noteTrng_ignIe : s.noteTrng.ignIe = s.ignIe := rfl
@[simp] theorem noteTrng_cfg : s.noteTrng.cfg = s.cfg := rfl
@[simp] theorem noteTrng_inputs : s.noteTrng.inputs = s.inputs := rfl
@[simp] theorem noteTrng_trng : s.noteTrng.trng = s.trng.tail := rfl
@[simp] theorem noteTrng_trngDraws : s.noteTrng.trngDraws = s.trngDraws + 1 := rfl
@[simp] theorem noteTrng_bufReads : s.noteTrng.bufReads = s.bufReads := rfl
@[simp] theorem noteTrng_response : s.noteTrng.response = s.response := rfl
@[simp] theorem noteTrng_busErrors : s.noteTrng.busErrors = s.busErrors := rfl

@[simp] theorem issue_buf (v : Word32) : (s.issue v).buf = s.buf := rfl
@[simp] theorem issue_srcAddr (v : Word32) : (s.issue v).srcAddr = s.srcAddr := rfl
@[simp] theorem issue_srcLen (v : Word32) : (s.issue v).srcLen = s.srcLen := rfl
@[simp] theorem issue_dstAddr (v : Word32) : (s.issue v).dstAddr = s.dstAddr := rfl
@[simp] theorem issue_dstLen (v : Word32) : (s.issue v).dstLen = s.dstLen := rfl
@[simp] theorem issue_latched (v : Word32) : (s.issue v).latched = some { cmd := v, src := s.srcAddr, len := s.srcLen, dst := s.dstAddr } := rfl
@[simp] theorem issue_vault (v : Word32) : (s.issue v).vault = s.vault := rfl
@[simp] theorem issue_keyValid (v : Word32) : (s.issue v).keyValid = s.keyValid := rfl
@[simp] theorem issue_stDone (v : Word32) : (s.issue v).stDone = s.stDone := rfl
@[simp] theorem issue_stPass (v : Word32) : (s.issue v).stPass = s.stPass := rfl
@[simp] theorem issue_err (v : Word32) : (s.issue v).err = s.err := rfl
@[simp] theorem issue_intDone (v : Word32) : (s.issue v).intDone = s.intDone := rfl
@[simp] theorem issue_intIgn (v : Word32) : (s.issue v).intIgn = s.intIgn := rfl
@[simp] theorem issue_doneIe (v : Word32) : (s.issue v).doneIe = s.doneIe := rfl
@[simp] theorem issue_ignIe (v : Word32) : (s.issue v).ignIe = s.ignIe := rfl
@[simp] theorem issue_cfg (v : Word32) : (s.issue v).cfg = s.cfg := rfl
@[simp] theorem issue_inputs (v : Word32) : (s.issue v).inputs = s.inputs := rfl
@[simp] theorem issue_trng (v : Word32) : (s.issue v).trng = s.trng := rfl
@[simp] theorem issue_trngDraws (v : Word32) : (s.issue v).trngDraws = s.trngDraws := rfl
@[simp] theorem issue_bufReads (v : Word32) : (s.issue v).bufReads = s.bufReads := rfl
@[simp] theorem issue_response (v : Word32) : (s.issue v).response = s.response := rfl
@[simp] theorem issue_busErrors (v : Word32) : (s.issue v).busErrors = s.busErrors := rfl

@[simp] theorem setVault_buf (v : Key) (b : Bool) : (s.setVault v b).buf = s.buf := rfl
@[simp] theorem setVault_srcAddr (v : Key) (b : Bool) : (s.setVault v b).srcAddr = s.srcAddr := rfl
@[simp] theorem setVault_srcLen (v : Key) (b : Bool) : (s.setVault v b).srcLen = s.srcLen := rfl
@[simp] theorem setVault_dstAddr (v : Key) (b : Bool) : (s.setVault v b).dstAddr = s.dstAddr := rfl
@[simp] theorem setVault_dstLen (v : Key) (b : Bool) : (s.setVault v b).dstLen = s.dstLen := rfl
@[simp] theorem setVault_latched (v : Key) (b : Bool) : (s.setVault v b).latched = s.latched := rfl
@[simp] theorem setVault_vault (v : Key) (b : Bool) : (s.setVault v b).vault = v := rfl
@[simp] theorem setVault_keyValid (v : Key) (b : Bool) : (s.setVault v b).keyValid = b := rfl
@[simp] theorem setVault_stDone (v : Key) (b : Bool) : (s.setVault v b).stDone = s.stDone := rfl
@[simp] theorem setVault_stPass (v : Key) (b : Bool) : (s.setVault v b).stPass = s.stPass := rfl
@[simp] theorem setVault_err (v : Key) (b : Bool) : (s.setVault v b).err = s.err := rfl
@[simp] theorem setVault_intDone (v : Key) (b : Bool) : (s.setVault v b).intDone = s.intDone := rfl
@[simp] theorem setVault_intIgn (v : Key) (b : Bool) : (s.setVault v b).intIgn = s.intIgn := rfl
@[simp] theorem setVault_doneIe (v : Key) (b : Bool) : (s.setVault v b).doneIe = s.doneIe := rfl
@[simp] theorem setVault_ignIe (v : Key) (b : Bool) : (s.setVault v b).ignIe = s.ignIe := rfl
@[simp] theorem setVault_cfg (v : Key) (b : Bool) : (s.setVault v b).cfg = s.cfg := rfl
@[simp] theorem setVault_inputs (v : Key) (b : Bool) : (s.setVault v b).inputs = s.inputs := rfl
@[simp] theorem setVault_trng (v : Key) (b : Bool) : (s.setVault v b).trng = s.trng := rfl
@[simp] theorem setVault_trngDraws (v : Key) (b : Bool) : (s.setVault v b).trngDraws = s.trngDraws := rfl
@[simp] theorem setVault_bufReads (v : Key) (b : Bool) : (s.setVault v b).bufReads = s.bufReads := rfl
@[simp] theorem setVault_response (v : Key) (b : Bool) : (s.setVault v b).response = s.response := rfl
@[simp] theorem setVault_busErrors (v : Key) (b : Bool) : (s.setVault v b).busErrors = s.busErrors := rfl

@[simp] theorem noteSelftest_buf (ok : Bool) : (s.noteSelftest ok).buf = s.buf := rfl
@[simp] theorem noteSelftest_srcAddr (ok : Bool) : (s.noteSelftest ok).srcAddr = s.srcAddr := rfl
@[simp] theorem noteSelftest_srcLen (ok : Bool) : (s.noteSelftest ok).srcLen = s.srcLen := rfl
@[simp] theorem noteSelftest_dstAddr (ok : Bool) : (s.noteSelftest ok).dstAddr = s.dstAddr := rfl
@[simp] theorem noteSelftest_dstLen (ok : Bool) : (s.noteSelftest ok).dstLen = s.dstLen := rfl
@[simp] theorem noteSelftest_latched (ok : Bool) : (s.noteSelftest ok).latched = s.latched := rfl
@[simp] theorem noteSelftest_vault (ok : Bool) : (s.noteSelftest ok).vault = s.vault := rfl
@[simp] theorem noteSelftest_keyValid (ok : Bool) : (s.noteSelftest ok).keyValid = s.keyValid := rfl
@[simp] theorem noteSelftest_stDone (ok : Bool) : (s.noteSelftest ok).stDone = true := rfl
@[simp] theorem noteSelftest_stPass (ok : Bool) : (s.noteSelftest ok).stPass = ok := rfl
@[simp] theorem noteSelftest_err (ok : Bool) : (s.noteSelftest ok).err = s.err := rfl
@[simp] theorem noteSelftest_intDone (ok : Bool) : (s.noteSelftest ok).intDone = s.intDone := rfl
@[simp] theorem noteSelftest_intIgn (ok : Bool) : (s.noteSelftest ok).intIgn = s.intIgn := rfl
@[simp] theorem noteSelftest_doneIe (ok : Bool) : (s.noteSelftest ok).doneIe = s.doneIe := rfl
@[simp] theorem noteSelftest_ignIe (ok : Bool) : (s.noteSelftest ok).ignIe = s.ignIe := rfl
@[simp] theorem noteSelftest_cfg (ok : Bool) : (s.noteSelftest ok).cfg = s.cfg := rfl
@[simp] theorem noteSelftest_inputs (ok : Bool) : (s.noteSelftest ok).inputs = s.inputs := rfl
@[simp] theorem noteSelftest_trng (ok : Bool) : (s.noteSelftest ok).trng = s.trng := rfl
@[simp] theorem noteSelftest_trngDraws (ok : Bool) : (s.noteSelftest ok).trngDraws = s.trngDraws := rfl
@[simp] theorem noteSelftest_bufReads (ok : Bool) : (s.noteSelftest ok).bufReads = s.bufReads := rfl
@[simp] theorem noteSelftest_response (ok : Bool) : (s.noteSelftest ok).response = s.response := rfl
@[simp] theorem noteSelftest_busErrors (ok : Bool) : (s.noteSelftest ok).busErrors = s.busErrors := rfl

@[simp] theorem setIgn_buf : s.setIgn.buf = s.buf := rfl
@[simp] theorem setIgn_srcAddr : s.setIgn.srcAddr = s.srcAddr := rfl
@[simp] theorem setIgn_srcLen : s.setIgn.srcLen = s.srcLen := rfl
@[simp] theorem setIgn_dstAddr : s.setIgn.dstAddr = s.dstAddr := rfl
@[simp] theorem setIgn_dstLen : s.setIgn.dstLen = s.dstLen := rfl
@[simp] theorem setIgn_latched : s.setIgn.latched = s.latched := rfl
@[simp] theorem setIgn_vault : s.setIgn.vault = s.vault := rfl
@[simp] theorem setIgn_keyValid : s.setIgn.keyValid = s.keyValid := rfl
@[simp] theorem setIgn_stDone : s.setIgn.stDone = s.stDone := rfl
@[simp] theorem setIgn_stPass : s.setIgn.stPass = s.stPass := rfl
@[simp] theorem setIgn_err : s.setIgn.err = s.err := rfl
@[simp] theorem setIgn_intDone : s.setIgn.intDone = s.intDone := rfl
@[simp] theorem setIgn_intIgn : s.setIgn.intIgn = true := rfl
@[simp] theorem setIgn_doneIe : s.setIgn.doneIe = s.doneIe := rfl
@[simp] theorem setIgn_ignIe : s.setIgn.ignIe = s.ignIe := rfl
@[simp] theorem setIgn_cfg : s.setIgn.cfg = s.cfg := rfl
@[simp] theorem setIgn_inputs : s.setIgn.inputs = s.inputs := rfl
@[simp] theorem setIgn_trng : s.setIgn.trng = s.trng := rfl
@[simp] theorem setIgn_trngDraws : s.setIgn.trngDraws = s.trngDraws := rfl
@[simp] theorem setIgn_bufReads : s.setIgn.bufReads = s.bufReads := rfl
@[simp] theorem setIgn_response : s.setIgn.response = s.response := rfl
@[simp] theorem setIgn_busErrors : s.setIgn.busErrors = s.busErrors := rfl

@[simp] theorem clearIntStatus_buf (v : Word32) : (s.clearIntStatus v).buf = s.buf := rfl
@[simp] theorem clearIntStatus_srcAddr (v : Word32) : (s.clearIntStatus v).srcAddr = s.srcAddr := rfl
@[simp] theorem clearIntStatus_srcLen (v : Word32) : (s.clearIntStatus v).srcLen = s.srcLen := rfl
@[simp] theorem clearIntStatus_dstAddr (v : Word32) : (s.clearIntStatus v).dstAddr = s.dstAddr := rfl
@[simp] theorem clearIntStatus_dstLen (v : Word32) : (s.clearIntStatus v).dstLen = s.dstLen := rfl
@[simp] theorem clearIntStatus_latched (v : Word32) : (s.clearIntStatus v).latched = s.latched := rfl
@[simp] theorem clearIntStatus_vault (v : Word32) : (s.clearIntStatus v).vault = s.vault := rfl
@[simp] theorem clearIntStatus_keyValid (v : Word32) : (s.clearIntStatus v).keyValid = s.keyValid := rfl
@[simp] theorem clearIntStatus_stDone (v : Word32) : (s.clearIntStatus v).stDone = s.stDone := rfl
@[simp] theorem clearIntStatus_stPass (v : Word32) : (s.clearIntStatus v).stPass = s.stPass := rfl
@[simp] theorem clearIntStatus_err (v : Word32) : (s.clearIntStatus v).err = s.err := rfl
@[simp] theorem clearIntStatus_intDone (v : Word32) : (s.clearIntStatus v).intDone = (s.intDone && !v.getLsbD 0) := rfl
@[simp] theorem clearIntStatus_intIgn (v : Word32) : (s.clearIntStatus v).intIgn = (s.intIgn && !v.getLsbD 1) := rfl
@[simp] theorem clearIntStatus_doneIe (v : Word32) : (s.clearIntStatus v).doneIe = s.doneIe := rfl
@[simp] theorem clearIntStatus_ignIe (v : Word32) : (s.clearIntStatus v).ignIe = s.ignIe := rfl
@[simp] theorem clearIntStatus_cfg (v : Word32) : (s.clearIntStatus v).cfg = s.cfg := rfl
@[simp] theorem clearIntStatus_inputs (v : Word32) : (s.clearIntStatus v).inputs = s.inputs := rfl
@[simp] theorem clearIntStatus_trng (v : Word32) : (s.clearIntStatus v).trng = s.trng := rfl
@[simp] theorem clearIntStatus_trngDraws (v : Word32) : (s.clearIntStatus v).trngDraws = s.trngDraws := rfl
@[simp] theorem clearIntStatus_bufReads (v : Word32) : (s.clearIntStatus v).bufReads = s.bufReads := rfl
@[simp] theorem clearIntStatus_response (v : Word32) : (s.clearIntStatus v).response = s.response := rfl
@[simp] theorem clearIntStatus_busErrors (v : Word32) : (s.clearIntStatus v).busErrors = s.busErrors := rfl

@[simp] theorem setIntEnable_buf (v : Word32) : (s.setIntEnable v).buf = s.buf := rfl
@[simp] theorem setIntEnable_srcAddr (v : Word32) : (s.setIntEnable v).srcAddr = s.srcAddr := rfl
@[simp] theorem setIntEnable_srcLen (v : Word32) : (s.setIntEnable v).srcLen = s.srcLen := rfl
@[simp] theorem setIntEnable_dstAddr (v : Word32) : (s.setIntEnable v).dstAddr = s.dstAddr := rfl
@[simp] theorem setIntEnable_dstLen (v : Word32) : (s.setIntEnable v).dstLen = s.dstLen := rfl
@[simp] theorem setIntEnable_latched (v : Word32) : (s.setIntEnable v).latched = s.latched := rfl
@[simp] theorem setIntEnable_vault (v : Word32) : (s.setIntEnable v).vault = s.vault := rfl
@[simp] theorem setIntEnable_keyValid (v : Word32) : (s.setIntEnable v).keyValid = s.keyValid := rfl
@[simp] theorem setIntEnable_stDone (v : Word32) : (s.setIntEnable v).stDone = s.stDone := rfl
@[simp] theorem setIntEnable_stPass (v : Word32) : (s.setIntEnable v).stPass = s.stPass := rfl
@[simp] theorem setIntEnable_err (v : Word32) : (s.setIntEnable v).err = s.err := rfl
@[simp] theorem setIntEnable_intDone (v : Word32) : (s.setIntEnable v).intDone = s.intDone := rfl
@[simp] theorem setIntEnable_intIgn (v : Word32) : (s.setIntEnable v).intIgn = s.intIgn := rfl
@[simp] theorem setIntEnable_doneIe (v : Word32) : (s.setIntEnable v).doneIe = v.getLsbD 0 := rfl
@[simp] theorem setIntEnable_ignIe (v : Word32) : (s.setIntEnable v).ignIe = v.getLsbD 1 := rfl
@[simp] theorem setIntEnable_cfg (v : Word32) : (s.setIntEnable v).cfg = s.cfg := rfl
@[simp] theorem setIntEnable_inputs (v : Word32) : (s.setIntEnable v).inputs = s.inputs := rfl
@[simp] theorem setIntEnable_trng (v : Word32) : (s.setIntEnable v).trng = s.trng := rfl
@[simp] theorem setIntEnable_trngDraws (v : Word32) : (s.setIntEnable v).trngDraws = s.trngDraws := rfl
@[simp] theorem setIntEnable_bufReads (v : Word32) : (s.setIntEnable v).bufReads = s.bufReads := rfl
@[simp] theorem setIntEnable_response (v : Word32) : (s.setIntEnable v).response = s.response := rfl
@[simp] theorem setIntEnable_busErrors (v : Word32) : (s.setIntEnable v).busErrors = s.busErrors := rfl

@[simp] theorem respond_buf (r : Response) : (s.respond r).buf = s.buf := rfl
@[simp] theorem respond_srcAddr (r : Response) : (s.respond r).srcAddr = s.srcAddr := rfl
@[simp] theorem respond_srcLen (r : Response) : (s.respond r).srcLen = s.srcLen := rfl
@[simp] theorem respond_dstAddr (r : Response) : (s.respond r).dstAddr = s.dstAddr := rfl
@[simp] theorem respond_dstLen (r : Response) : (s.respond r).dstLen = s.dstLen := rfl
@[simp] theorem respond_latched (r : Response) : (s.respond r).latched = s.latched := rfl
@[simp] theorem respond_vault (r : Response) : (s.respond r).vault = s.vault := rfl
@[simp] theorem respond_keyValid (r : Response) : (s.respond r).keyValid = s.keyValid := rfl
@[simp] theorem respond_stDone (r : Response) : (s.respond r).stDone = s.stDone := rfl
@[simp] theorem respond_stPass (r : Response) : (s.respond r).stPass = s.stPass := rfl
@[simp] theorem respond_err (r : Response) : (s.respond r).err = s.err := rfl
@[simp] theorem respond_intDone (r : Response) : (s.respond r).intDone = s.intDone := rfl
@[simp] theorem respond_intIgn (r : Response) : (s.respond r).intIgn = s.intIgn := rfl
@[simp] theorem respond_doneIe (r : Response) : (s.respond r).doneIe = s.doneIe := rfl
@[simp] theorem respond_ignIe (r : Response) : (s.respond r).ignIe = s.ignIe := rfl
@[simp] theorem respond_cfg (r : Response) : (s.respond r).cfg = s.cfg := rfl
@[simp] theorem respond_inputs (r : Response) : (s.respond r).inputs = s.inputs := rfl
@[simp] theorem respond_trng (r : Response) : (s.respond r).trng = s.trng := rfl
@[simp] theorem respond_trngDraws (r : Response) : (s.respond r).trngDraws = s.trngDraws := rfl
@[simp] theorem respond_bufReads (r : Response) : (s.respond r).bufReads = s.bufReads := rfl
@[simp] theorem respond_response (r : Response) : (s.respond r).response = some r := rfl
@[simp] theorem respond_busErrors (r : Response) : (s.respond r).busErrors = s.busErrors := rfl

@[simp] theorem busFault_buf (a : Access) : (s.busFault a).buf = s.buf := rfl
@[simp] theorem busFault_srcAddr (a : Access) : (s.busFault a).srcAddr = s.srcAddr := rfl
@[simp] theorem busFault_srcLen (a : Access) : (s.busFault a).srcLen = s.srcLen := rfl
@[simp] theorem busFault_dstAddr (a : Access) : (s.busFault a).dstAddr = s.dstAddr := rfl
@[simp] theorem busFault_dstLen (a : Access) : (s.busFault a).dstLen = s.dstLen := rfl
@[simp] theorem busFault_latched (a : Access) : (s.busFault a).latched = s.latched := rfl
@[simp] theorem busFault_vault (a : Access) : (s.busFault a).vault = s.vault := rfl
@[simp] theorem busFault_keyValid (a : Access) : (s.busFault a).keyValid = s.keyValid := rfl
@[simp] theorem busFault_stDone (a : Access) : (s.busFault a).stDone = s.stDone := rfl
@[simp] theorem busFault_stPass (a : Access) : (s.busFault a).stPass = s.stPass := rfl
@[simp] theorem busFault_err (a : Access) : (s.busFault a).err = s.err := rfl
@[simp] theorem busFault_intDone (a : Access) : (s.busFault a).intDone = s.intDone := rfl
@[simp] theorem busFault_intIgn (a : Access) : (s.busFault a).intIgn = s.intIgn := rfl
@[simp] theorem busFault_doneIe (a : Access) : (s.busFault a).doneIe = s.doneIe := rfl
@[simp] theorem busFault_ignIe (a : Access) : (s.busFault a).ignIe = s.ignIe := rfl
@[simp] theorem busFault_cfg (a : Access) : (s.busFault a).cfg = s.cfg := rfl
@[simp] theorem busFault_inputs (a : Access) : (s.busFault a).inputs = s.inputs := rfl
@[simp] theorem busFault_trng (a : Access) : (s.busFault a).trng = s.trng := rfl
@[simp] theorem busFault_trngDraws (a : Access) : (s.busFault a).trngDraws = s.trngDraws := rfl
@[simp] theorem busFault_bufReads (a : Access) : (s.busFault a).bufReads = s.bufReads := rfl
@[simp] theorem busFault_response (a : Access) : (s.busFault a).response = some .busError := rfl
@[simp] theorem busFault_busErrors (a : Access) : (s.busFault a).busErrors = s.busErrors ++ [a] := rfl

@[simp] theorem popInput_buf : s.popInput.buf = s.buf := rfl
@[simp] theorem popInput_srcAddr : s.popInput.srcAddr = s.srcAddr := rfl
@[simp] theorem popInput_srcLen : s.popInput.srcLen = s.srcLen := rfl
@[simp] theorem popInput_dstAddr : s.popInput.dstAddr = s.dstAddr := rfl
@[simp] theorem popInput_dstLen : s.popInput.dstLen = s.dstLen := rfl
@[simp] theorem popInput_latched : s.popInput.latched = s.latched := rfl
@[simp] theorem popInput_vault : s.popInput.vault = s.vault := rfl
@[simp] theorem popInput_keyValid : s.popInput.keyValid = s.keyValid := rfl
@[simp] theorem popInput_stDone : s.popInput.stDone = s.stDone := rfl
@[simp] theorem popInput_stPass : s.popInput.stPass = s.stPass := rfl
@[simp] theorem popInput_err : s.popInput.err = s.err := rfl
@[simp] theorem popInput_intDone : s.popInput.intDone = s.intDone := rfl
@[simp] theorem popInput_intIgn : s.popInput.intIgn = s.intIgn := rfl
@[simp] theorem popInput_doneIe : s.popInput.doneIe = s.doneIe := rfl
@[simp] theorem popInput_ignIe : s.popInput.ignIe = s.ignIe := rfl
@[simp] theorem popInput_cfg : s.popInput.cfg = s.cfg := rfl
@[simp] theorem popInput_inputs : s.popInput.inputs = s.inputs.tail := rfl
@[simp] theorem popInput_trng : s.popInput.trng = s.trng := rfl
@[simp] theorem popInput_trngDraws : s.popInput.trngDraws = s.trngDraws := rfl
@[simp] theorem popInput_bufReads : s.popInput.bufReads = s.bufReads := rfl
@[simp] theorem popInput_response : s.popInput.response = s.response := rfl
@[simp] theorem popInput_busErrors : s.popInput.busErrors = s.busErrors := rfl

@[simp] theorem takeReset_buf : s.takeReset.buf = [] := rfl
@[simp] theorem takeReset_srcAddr : s.takeReset.srcAddr = 0 := rfl
@[simp] theorem takeReset_srcLen : s.takeReset.srcLen = 0 := rfl
@[simp] theorem takeReset_dstAddr : s.takeReset.dstAddr = 0 := rfl
@[simp] theorem takeReset_dstLen : s.takeReset.dstLen = 0 := rfl
@[simp] theorem takeReset_latched : s.takeReset.latched = none := rfl
@[simp] theorem takeReset_vault : s.takeReset.vault = zeroVault := rfl
@[simp] theorem takeReset_keyValid : s.takeReset.keyValid = false := rfl
@[simp] theorem takeReset_stDone : s.takeReset.stDone = false := rfl
@[simp] theorem takeReset_stPass : s.takeReset.stPass = false := rfl
@[simp] theorem takeReset_err : s.takeReset.err = .ok := rfl
@[simp] theorem takeReset_intDone : s.takeReset.intDone = false := rfl
@[simp] theorem takeReset_intIgn : s.takeReset.intIgn = false := rfl
@[simp] theorem takeReset_doneIe : s.takeReset.doneIe = false := rfl
@[simp] theorem takeReset_ignIe : s.takeReset.ignIe = false := rfl
@[simp] theorem takeReset_cfg : s.takeReset.cfg = s.cfg := rfl
@[simp] theorem takeReset_inputs : s.takeReset.inputs = s.inputs := rfl
@[simp] theorem takeReset_trng : s.takeReset.trng = s.trng := rfl
@[simp] theorem takeReset_trngDraws : s.takeReset.trngDraws = s.trngDraws := rfl
@[simp] theorem takeReset_bufReads : s.takeReset.bufReads = s.bufReads := rfl
@[simp] theorem takeReset_response : s.takeReset.response = s.response := rfl
@[simp] theorem takeReset_busErrors : s.takeReset.busErrors = s.busErrors := rfl

theorem busy_eq_isSome : s.busy = s.latched.isSome := rfl

end Sys2Proof.Machine.State
end

