-- ==== Sys2Proof/Laws/Ops.lean ====
section
/-! SUPPORT. What each shared operation can do, said once: running a command, the Engine's step, one step, and one host
access. -/

namespace Sys2Proof.Machine

/-- A command answers a next state exactly where one is latched, and then it is its rule's (R122). -/
theorem runCommand_eq_next {rule : Latched → State → State} {s t : State} :
    runCommand rule s = .next t ↔ ∃ L, s.latched = some L ∧ t = rule L s := by
  unfold runCommand
  cases h : s.latched with
  | none => simp
  | some L => simp [eq_comm]

theorem runCommand_of_latched {rule : Latched → State → State} {s : State} {L : Latched}
    (h : s.latched = some L) : runCommand rule s = .next (rule L s) := by
  simp [runCommand, h]

/-- The rule of each command. -/
def ruleOf : Instr → Latched → State → State
  | .nop            => nopRule
  | .hash           => hashRule
  | .ecbEncrypt     => ecbEncryptRule
  | .ecbDecrypt     => ecbDecryptRule
  | .cbcEncrypt     => cbcEncryptRule
  | .cbcDecrypt     => cbcDecryptRule
  | .setPassword    => setPasswordRule
  | .invalidate     => invalidateRule
  | .payloadEncrypt => payloadEncryptRule
  | .payloadDecrypt => payloadDecryptRule
  | .selftest       => selftestRule

theorem exec_eq_runCommand (i : Instr) (s : State) : exec i s = runCommand (ruleOf i) s := by
  cases i <;> rfl

/-- A command with something latched always answers a next state: its rule's. -/
theorem exec_of_latched {i : Instr} {s : State} {L : Latched} (h : s.latched = some L) :
    exec i s = .next (ruleOf i L s) := by
  rw [exec_eq_runCommand, runCommand_of_latched h]

/-- What a command that answers a next state did. -/
theorem exec_eq_next {i : Instr} {s t : State} :
    exec i s = .next t ↔ ∃ L, s.latched = some L ∧ t = ruleOf i L s := by
  rw [exec_eq_runCommand, runCommand_eq_next]

/-- What the Engine's step can do (R122, R59): wait, complete an illegal word, or complete a command. -/
theorem engineStep_cases (s : State) :
    (s.latched = none ∧ engineStep s = .next s) ∨
    (∃ L e, s.latched = some L ∧ decode L.cmd = .error e ∧ engineStep s = .next s.illegalCommand) ∨
    (∃ L i, s.latched = some L ∧ decode L.cmd = .ok i ∧ engineStep s = .next (ruleOf i L s)) := by
  unfold engineStep
  cases h : s.latched with
  | none => simp
  | some L =>
    cases hd : decode L.cmd with
    | error e => simp [hd]
    | ok i => simp [hd, exec_of_latched h]

end Sys2Proof.Machine
end

