-- ==== Sys2Proof/Laws/Commands.lean ====
section
/-! SUPPORT. What each command's rule can do, said once: it ends with an error that changes nothing else, or it has the
effect of its rule (the pseudocode of 40_hash_engine.md R74, 41_block_cipher.md R89 and R90, 42_chained_mode.md R97 and
R98, 43_key_enclave.md R106, 44_payload_framing.md R113 and R117, 45_selftest_and_control.md R129). -/

namespace Sys2Proof.Machine

theorem hashRule_cases (L : Latched) (s : State) :
    (∃ c, c ≠ .ok ∧ hashRule L s = s.raise c) ∨
    (s.stPass = true ∧ L.srcInBounds s.cfg = true ∧ L.dstInBounds s.cfg 64 = true ∧
      hashRule L s = (s.noteRead.memWrite L.dstOff (hashOf (s.input L)).toList).succeed 64) := by
  unfold hashRule
  split
  · exact .inl ⟨_, by decide, rfl⟩
  split
  · exact .inl ⟨_, by decide, rfl⟩
  split
  · exact .inl ⟨_, by decide, rfl⟩
  · exact .inr ⟨by simp_all, by simp_all, by simp_all, rfl⟩

theorem ecbEncryptRule_cases (L : Latched) (s : State) :
    (∃ c, c ≠ .ok ∧ ecbEncryptRule L s = s.raise c) ∨
    (s.stPass = true ∧ s.keyValid = true ∧ L.srcInBounds s.cfg = true ∧ L.length = 16 ∧
      L.dstInBounds s.cfg 16 = true ∧
      ecbEncryptRule L s = (s.noteRead.memWrite L.dstOff
        (tfEncrypt s.vaultSchedule (bytesToVector 16 (s.memRead L.srcOff 16))).toList).succeed 16) := by
  unfold ecbEncryptRule
  split
  · exact .inl ⟨_, by decide, rfl⟩
  split
  · exact .inl ⟨_, by decide, rfl⟩
  split
  · exact .inl ⟨_, by decide, rfl⟩
  split
  · exact .inl ⟨_, by decide, rfl⟩
  split
  · exact .inl ⟨_, by decide, rfl⟩
  · exact .inr ⟨by simp_all, by simp_all, by simp_all, by simp_all, by simp_all, rfl⟩

theorem ecbDecryptRule_cases (L : Latched) (s : State) :
    (∃ c, c ≠ .ok ∧ ecbDecryptRule L s = s.raise c) ∨
    (s.stPass = true ∧ s.keyValid = true ∧ L.srcInBounds s.cfg = true ∧ L.length = 16 ∧
      L.dstInBounds s.cfg 16 = true ∧
      ecbDecryptRule L s = (s.noteRead.memWrite L.dstOff
        (tfDecrypt s.vaultSchedule (bytesToVector 16 (s.memRead L.srcOff 16))).toList).succeed 16) := by
  unfold ecbDecryptRule
  split
  · exact .inl ⟨_, by decide, rfl⟩
  split
  · exact .inl ⟨_, by decide, rfl⟩
  split
  · exact .inl ⟨_, by decide, rfl⟩
  split
  · exact .inl ⟨_, by decide, rfl⟩
  split
  · exact .inl ⟨_, by decide, rfl⟩
  · exact .inr ⟨by simp_all, by simp_all, by simp_all, by simp_all, by simp_all, rfl⟩

theorem cbcEncryptRule_cases (L : Latched) (s : State) :
    (∃ c, c ≠ .ok ∧ cbcEncryptRule L s = s.raise c) ∨
    (s.stPass = true ∧ s.keyValid = true ∧ L.srcInBounds s.cfg = true ∧
      L.dstInBounds s.cfg (ceil16 L.length) = true ∧
      cbcEncryptRule L s = (s.noteRead.memWrite L.dstOff
        (cbcEnc s.vaultSchedule (s.input L))).succeed (ceil16 L.length)) := by
  simp only [cbcEncryptRule]
  split
  · exact .inl ⟨_, by decide, rfl⟩
  split
  · exact .inl ⟨_, by decide, rfl⟩
  split
  · exact .inl ⟨_, by decide, rfl⟩
  split
  · exact .inl ⟨_, by decide, rfl⟩
  · exact .inr ⟨by simp_all, by simp_all, by simp_all, by simp_all, rfl⟩

theorem cbcDecryptRule_cases (L : Latched) (s : State) :
    (∃ c, c ≠ .ok ∧ cbcDecryptRule L s = s.raise c) ∨
    (s.stPass = true ∧ s.keyValid = true ∧ L.srcInBounds s.cfg = true ∧ L.length % 16 = 0 ∧
      L.dstInBounds s.cfg L.length = true ∧
      cbcDecryptRule L s = (s.noteRead.memWrite L.dstOff
        (cbcDec s.vaultSchedule (s.input L))).succeed L.length) := by
  unfold cbcDecryptRule
  split
  · exact .inl ⟨_, by decide, rfl⟩
  split
  · exact .inl ⟨_, by decide, rfl⟩
  split
  · exact .inl ⟨_, by decide, rfl⟩
  split
  · exact .inl ⟨_, by decide, rfl⟩
  split
  · exact .inl ⟨_, by decide, rfl⟩
  · exact .inr ⟨by simp_all, by simp_all, by simp_all, by simp_all, by simp_all, rfl⟩

theorem setPasswordRule_cases (L : Latched) (s : State) :
    (∃ c, c ≠ .ok ∧ setPasswordRule L s = s.raise c) ∨
    (s.stPass = true ∧ L.srcInBounds s.cfg = true ∧
      setPasswordRule L s =
        (s.noteRead.setVault (obfuscate (deriveKey s.cfg.stretchRounds.toNat (s.input L))) true).succeed 0) := by
  unfold setPasswordRule
  split
  · exact .inl ⟨_, by decide, rfl⟩
  split
  · exact .inl ⟨_, by decide, rfl⟩
  · exact .inr ⟨by simp_all, by simp_all, rfl⟩

/-- What PAYLOAD_ENCRYPT can do. The randomness source is asked only where every operand check has passed (R137). -/
theorem payloadEncryptRule_cases (L : Latched) (s : State) :
    (∃ c, c ≠ .ok ∧ payloadEncryptRule L s = s.raise c) ∨
    (s.stPass = true ∧ s.keyValid = true ∧ L.srcInBounds s.cfg = true ∧ L.length = 0 ∧
      L.dstInBounds s.cfg s.cfg.markerLen = true ∧
      payloadEncryptRule L s = (s.memWrite L.dstOff s.cfg.marker).succeed s.cfg.markerLen) ∨
    (s.stPass = true ∧ s.keyValid = true ∧ L.srcInBounds s.cfg = true ∧ L.length ≠ 0 ∧
      L.dstInBounds s.cfg (payloadLength s.cfg.markerLen L.length) = true ∧ s.trngAnswer = .unavailable ∧
      payloadEncryptRule L s = s.noteTrng.raise .randomnessUnavailable) ∨
    (s.stPass = true ∧ s.keyValid = true ∧ L.srcInBounds s.cfg = true ∧ L.length ≠ 0 ∧
      L.dstInBounds s.cfg (payloadLength s.cfg.markerLen L.length) = true ∧
      ∃ tok, s.trngAnswer = .bytes tok ∧
        payloadEncryptRule L s = (s.noteTrng.noteRead.memWrite L.dstOff
          (payloadOf s.cfg.marker s.vaultSchedule (tok.toList ++ s.input L))).succeed
            (payloadLength s.cfg.markerLen L.length)) := by
  unfold payloadEncryptRule
  split
  · exact .inl ⟨_, by decide, rfl⟩
  split
  · exact .inl ⟨_, by decide, rfl⟩
  split
  · exact .inl ⟨_, by decide, rfl⟩
  split
  · split
    · exact .inl ⟨_, by decide, rfl⟩
    · exact .inr (.inl ⟨by simp_all, by simp_all, by simp_all, by simp_all, by simp_all, rfl⟩)
  split
  · exact .inl ⟨_, by decide, rfl⟩
  · cases h : s.trngAnswer with
    | unavailable =>
      exact .inr (.inr (.inl ⟨by simp_all, by simp_all, by simp_all, by simp_all, by simp_all, rfl,
        by simp [sealPayload, h]⟩))
    | bytes tok =>
      exact .inr (.inr (.inr ⟨by simp_all, by simp_all, by simp_all, by simp_all, by simp_all, tok, rfl,
        by simp [sealPayload, h]⟩))

/-- What PAYLOAD_DECRYPT can do with a payload that has passed the checks on its marker and its size (R117). -/
theorem openPayload_cases (L : Latched) (p : List Byte) (s : State) :
    openPayload L p s = s.raise .integrityMismatch ∨
    ∃ r, resolvePadding (cbcDec s.vaultSchedule (cipherRegion s.cfg.markerLen p)) (storedDigest s.cfg.markerLen p) =
        some r ∧
      openPayload L p s = (s.memWrite L.dstOff
        (((cbcDec s.vaultSchedule (cipherRegion s.cfg.markerLen p)).take r).drop 16)).succeed (r - 16) := by
  simp only [openPayload]
  cases h : resolvePadding (cbcDec s.vaultSchedule (cipherRegion s.cfg.markerLen p))
      (storedDigest s.cfg.markerLen p) with
  | none => exact .inl rfl
  | some r => exact .inr ⟨r, rfl, rfl⟩

/-- What PAYLOAD_DECRYPT can do with its input (R115, R117). -/
theorem parsePayload_cases (L : Latched) (p : List Byte) (s : State) :
    (∃ c, c ≠ .ok ∧ parsePayload L p s = s.raise c) ∨
    (hasMarker s.cfg.marker p = true ∧ L.length = s.cfg.markerLen ∧ L.dstInBounds s.cfg 0 = true ∧
      parsePayload L p s = s.succeed 0) ∨
    (hasMarker s.cfg.marker p = true ∧ s.cfg.markerLen + 81 ≤ L.length ∧
      (L.length - s.cfg.markerLen - 64) % 16 = 0 ∧
      L.dstInBounds s.cfg (L.length - s.cfg.markerLen - 64 - 16) = true ∧
      parsePayload L p s = openPayload L p s) := by
  simp only [parsePayload]
  split
  · exact .inl ⟨_, by decide, rfl⟩
  split
  · split
    · exact .inl ⟨_, by decide, rfl⟩
    · exact .inr (.inl ⟨by simp_all, by simp_all, by simp_all, rfl⟩)
  split
  · exact .inl ⟨_, by decide, rfl⟩
  split
  · exact .inl ⟨_, by decide, rfl⟩
  split
  · exact .inl ⟨_, by decide, rfl⟩
  · exact .inr (.inr ⟨by simp_all, by omega, by simp_all, by simp_all, rfl⟩)

/-- What PAYLOAD_DECRYPT can do: an error before or after its input is read, or what its input asks for. -/
theorem payloadDecryptRule_cases (L : Latched) (s : State) :
    (∃ c, c ≠ .ok ∧ payloadDecryptRule L s = s.raise c) ∨
    (s.stPass = true ∧ s.keyValid = true ∧ L.srcInBounds s.cfg = true ∧
      payloadDecryptRule L s = parsePayload L (s.input L) s.noteRead) := by
  unfold payloadDecryptRule
  split
  · exact .inl ⟨_, by decide, rfl⟩
  split
  · exact .inl ⟨_, by decide, rfl⟩
  split
  · exact .inl ⟨_, by decide, rfl⟩
  · exact .inr ⟨by simp_all, by simp_all, by simp_all, rfl⟩

end Sys2Proof.Machine
end

