-- ==== Sys2Proof/Laws/Config.lean ====
section
/-! SUPPORT. The ranges of the implementation parameters (00_scope.md R10), which hold of every value of `Params`. -/

namespace Sys2Proof.Params

theorem bufBytes_pos (c : Params) : 0 < c.bufBytes := Nat.two_pow_pos _

theorem bufBytes_ge (c : Params) : 256 ≤ c.bufBytes := by
  calc 256 = 2 ^ 8 := rfl
    _ ≤ 2 ^ (8 + c.bufLog.val) := Nat.pow_le_pow_right (by decide) (by omega)

theorem bufBytes_le (c : Params) : c.bufBytes ≤ 65536 := by
  calc 2 ^ (8 + c.bufLog.val) ≤ 2 ^ 16 := Nat.pow_le_pow_right (by decide) (by omega)
    _ = 65536 := rfl

theorem markerLen_pos (c : Params) : 0 < c.markerLen := Nat.succ_pos _

theorem markerLen_le (c : Params) : c.markerLen ≤ 64 := c.markerLast.isLt

@[simp] theorem marker_length (c : Params) : c.marker.length = c.markerLen := by
  simp [marker, markerLen_le]

end Sys2Proof.Params
end

