-- ==== Sys2Proof/Laws/HostBus.lean ====
section
/-! SUPPORT. What a host access can do, said once: a register access, an ignored or a real buffer access, or a bus error
(20_memory.md R44 to R47). -/

namespace Sys2Proof.Machine

theorem hostRead_cases (w : Nat) (o : BitVec 17) (s : State) :
    (legalRegisterAccess w o.toNat = true ∧ hostRead w o s = s.respond (.data (readAt s o.toNat))) ∨
    (legalRegisterAccess w o.toNat = false ∧ legalBufferAccess s.cfg w o.toNat = true ∧ s.busy = true ∧
      hostRead w o s = s.setIgn.respond (.data 0)) ∨
    (legalRegisterAccess w o.toNat = false ∧ legalBufferAccess s.cfg w o.toNat = true ∧ s.busy = false ∧
      hostRead w o s =
        s.noteRead.respond (.data (BitVec.ofNat 32 (leValue (s.memRead (o.toNat - bufBase) w))))) ∨
    (legalRegisterAccess w o.toNat = false ∧ legalBufferAccess s.cfg w o.toNat = false ∧
      hostRead w o s = s.busFault (.read w o)) := by
  unfold hostRead
  cases h1 : legalRegisterAccess w o.toNat <;> cases h2 : legalBufferAccess s.cfg w o.toNat <;>
    cases h3 : s.busy <;> simp

theorem hostWrite_cases (w : Nat) (o : BitVec 17) (v : Word32) (s : State) :
    (legalRegisterAccess w o.toNat = true ∧ hostWrite w o v s = (writeAt v s o.toNat).respond .done) ∨
    (legalRegisterAccess w o.toNat = false ∧ legalBufferAccess s.cfg w o.toNat = true ∧ s.busy = true ∧
      hostWrite w o v s = s.setIgn.respond .done) ∨
    (legalRegisterAccess w o.toNat = false ∧ legalBufferAccess s.cfg w o.toNat = true ∧ s.busy = false ∧
      hostWrite w o v s = (s.memWrite (o.toNat - bufBase) (leBytes w v)).respond .done) ∨
    (legalRegisterAccess w o.toNat = false ∧ legalBufferAccess s.cfg w o.toNat = false ∧
      hostWrite w o v s = s.busFault (.write w o v)) := by
  unfold hostWrite
  cases h1 : legalRegisterAccess w o.toNat <;> cases h2 : legalBufferAccess s.cfg w o.toNat <;>
    cases h3 : s.busy <;> simp

/-- What a write to the register window can do (R20, R21, R25, R26, R28, R29, R47). -/
theorem writeAt_cases (v : Word32) (s : State) (o : Nat) :
    writeAt v s o = s ∨ (s.busy = true ∧ writeAt v s o = s.setIgn) ∨
    (s.busy = false ∧ writeAt v s o = s.issue v) ∨
    (s.busy = false ∧ writeAt v s o = { s with srcAddr := v }) ∨
    (s.busy = false ∧ writeAt v s o = { s with srcLen := v }) ∨
    (s.busy = false ∧ writeAt v s o = { s with dstAddr := v }) ∨
    writeAt v s o = s.clearIntStatus v ∨ writeAt v s o = s.setIntEnable v := by
  unfold writeAt
  cases h : registerAt o with
  | none => exact .inl rfl
  | some r => cases r <;> cases hb : s.busy <;> simp [writeRegister, hb]

end Sys2Proof.Machine
end

