-- ==== Sys2Proof/Laws/Memory.lean ====
section
/-! SUPPORT. The buffer: what a read finds after a write, and that every write keeps the canonical form and the
offsets it had or was given (20_memory.md R43, R45; 70_reset_and_hazards.md R142). -/

namespace Sys2Proof.Machine.Memory

theorem read_eq_none_of_lt {m : Memory} {a : Nat} (h : ∀ c ∈ m, a < c.1) : Memory.read m a = none := by
  induction m with
  | nil => rfl
  | cons c m ih =>
    have hc := h c (by simp)
    simp only [Memory.read, if_neg (Nat.ne_of_lt hc)]
    exact ih fun d hd => h d (by simp [hd])

/-- Read after write (R45), and every other offset unchanged. -/
theorem read_write (m : Memory) (a x : Nat) (v : Byte) :
    Memory.read (Memory.write m a v) x = if x = a then some v else Memory.read m x := by
  induction m with
  | nil => simp [Memory.write, Memory.read]
  | cons c m ih =>
    obtain ⟨k, b⟩ := c
    by_cases h1 : a < k
    · simp [Memory.write, h1, Memory.read]
    · by_cases h2 : a = k
      · subst h2
        by_cases hx : x = a <;> simp [Memory.write, Memory.read, hx]
      · by_cases hx : x = k
        · simp [Memory.write, h1, h2, Memory.read, hx, Ne.symm h2]
        · simp [Memory.write, h1, h2, Memory.read, hx, ih]

/-- A byte written by `writeBytes`, or the byte that was there (R45, R50). -/
theorem read_writeBytes (v : List Byte) : ∀ (m : Memory) (a x : Nat),
    Memory.read (Memory.writeBytes m a v) x =
      if a ≤ x ∧ x < a + v.length then v[x - a]? else Memory.read m x := by
  induction v with
  | nil => intro m a x; simp [Memory.writeBytes]
  | cons b v ih =>
    intro m a x
    rw [Memory.writeBytes, ih, read_write]
    by_cases h : x = a
    · subst h; simp
    · by_cases h2 : a + 1 ≤ x ∧ x < a + 1 + v.length
      · have h3 : a ≤ x ∧ x < a + (b :: v).length := by simp; omega
        rw [if_pos h2, if_pos h3]
        have : x - a = (x - (a + 1)) + 1 := by omega
        rw [this, List.getElem?_cons_succ]
      · have h3 : ¬ (a ≤ x ∧ x < a + (b :: v).length) := by simp; omega
        rw [if_neg h2, if_neg h3, if_neg h]

theorem read_writeBytes_outside (m : Memory) (a x : Nat) (v : List Byte) (h : x < a ∨ a + v.length ≤ x) :
    Memory.read (Memory.writeBytes m a v) x = Memory.read m x := by
  rw [read_writeBytes, if_neg (by omega)]

theorem mem_write {m : Memory} {a : Nat} {v : Byte} {c : Host.Cell} (h : c ∈ Memory.write m a v) :
    c = (a, v) ∨ c ∈ m := by
  induction m with
  | nil => simpa [Memory.write] using h
  | cons d m ih =>
    obtain ⟨k, b⟩ := d
    by_cases h1 : a < k
    · simpa [Memory.write, h1] using h
    · by_cases h2 : a = k
      · subst h2
        simp only [Memory.write, h1, if_false, if_true, List.mem_cons] at h
        rcases h with h | h <;> simp [h]
      · simp only [Memory.write, h1, h2, if_false, List.mem_cons] at h
        rcases h with h | h
        · simp [h]
        · rcases ih h with h | h <;> simp [h]

/-- One write keeps the canonical form. -/
theorem write_wf {m : Memory} (a : Nat) (v : Byte) (h : m.wf) : (Memory.write m a v).wf := by
  induction m with
  | nil => simp [Memory.write, Memory.wf]
  | cons d m ih =>
    obtain ⟨k, b⟩ := d
    have hd := List.pairwise_cons.1 h
    by_cases h1 : a < k
    · simp only [Memory.write, h1, if_true]
      refine List.pairwise_cons.2 ⟨fun c hc => ?_, h⟩
      rcases List.mem_cons.1 hc with rfl | hc
      · exact h1
      · exact Nat.lt_trans h1 (hd.1 c hc)
    · by_cases h2 : a = k
      · subst h2
        simp only [Memory.write, h1, if_false, if_true]
        exact List.pairwise_cons.2 ⟨hd.1, hd.2⟩
      · simp only [Memory.write, h1, h2, if_false]
        refine List.pairwise_cons.2 ⟨fun c hc => ?_, ih hd.2⟩
        rcases mem_write hc with rfl | hc
        · simp; omega
        · exact hd.1 c hc

/-- Writing a byte sequence keeps the canonical form. -/
theorem writeBytes_wf (v : List Byte) : ∀ {m : Memory} (a : Nat), m.wf → (Memory.writeBytes m a v).wf := by
  induction v with
  | nil => intro m a h; exact h
  | cons b v ih => intro m a h; exact ih (a + 1) (write_wf a b h)

/-- Writing a byte sequence below a bound keeps every offset below it. -/
theorem writeBytes_below (v : List Byte) : ∀ {m : Memory} (a n : Nat), a + v.length ≤ n →
    (∀ c ∈ m, c.1 < n) → ∀ c ∈ Memory.writeBytes m a v, c.1 < n := by
  induction v with
  | nil => intro m a n _ h; exact h
  | cons b v ih =>
    intro m a n hn h
    refine ih (a + 1) n (by simp at hn; omega) fun c hc => ?_
    rcases mem_write hc with rfl | hc
    · simp at hn; show a < n; omega
    · exact h c hc

end Sys2Proof.Machine.Memory
end

