-- ==== Sys2Proof/Laws/PerInstr.lean ====
section
/-! SUPPORT. Statements made per command: every command's word is a legal command word (30_encoding.md R57 to R59). -/

namespace Sys2Proof.Laws.EncodesLegalWord

/-- The command's word passes every check of R59, and it holds the command's opcode below RSV = 0. -/
def Statement (i : Instr) : Prop :=
  (commandFields (encode i)).wf = true ∧ commandFields (encode i) = { rsv := 0, opc := opcode i }

theorem nop : Statement .nop := by unfold Statement; decide
theorem hash : Statement .hash := by unfold Statement; decide
theorem ecbEncrypt : Statement .ecbEncrypt := by unfold Statement; decide
theorem ecbDecrypt : Statement .ecbDecrypt := by unfold Statement; decide
theorem cbcEncrypt : Statement .cbcEncrypt := by unfold Statement; decide
theorem cbcDecrypt : Statement .cbcDecrypt := by unfold Statement; decide
theorem setPassword : Statement .setPassword := by unfold Statement; decide
theorem invalidate : Statement .invalidate := by unfold Statement; decide
theorem payloadEncrypt : Statement .payloadEncrypt := by unfold Statement; decide
theorem payloadDecrypt : Statement .payloadDecrypt := by unfold Statement; decide
theorem selftest : Statement .selftest := by unfold Statement; decide

end Sys2Proof.Laws.EncodesLegalWord
end

