-- ==== Sys2Proof/Laws/SelfTest.lean ====
section
/-! SUPPORT. The harness's order of evaluation changes no value (45_selftest_and_control.md R128). -/

namespace Sys2Proof.Machine

@[simp] theorem strictNat_eq {α : Type} (n : Nat) (f : Nat → α) : strictNat n f = f n := by
  cases n <;> rfl

@[simp] theorem strictWord_eq {α : Type} (w : Word32) (f : Word32 → α) : strictWord w f = f w := by
  simp [strictWord]

@[simp] theorem strictBlock_eq {α : Type} (b : Block) (f : Block → α) : strictBlock b f = f b := by
  simp only [strictBlock, strictWord_eq]
  exact congrArg f (wordsBlock_blockWords b)

/-- One step of the harness as R128 writes it. -/
theorem harness_succ (n : Nat) (key : Key) (pt ct : Block) :
    harness (n + 1) key pt ct =
      if tfDecrypt (keySchedule key) (tfEncrypt (keySchedule key) pt) ≠ pt then none
      else harness n (feedbackKey pt key) (tfEncrypt (keySchedule key) pt) (tfEncrypt (keySchedule key) pt) := by
  simp only [harness, strictBlock_eq]

end Sys2Proof.Machine
end

