-- ==== Sys2Proof/Tests/Slice0.lean ====
section
/-! SUPPORT. The model's own tests. Every expected value is one of 95_test_vectors.md or of a rule's own example, and
each test names its source. The theorems `witness_…` show, for each statement with hypotheses, a concrete state and
operands that meet them all. -/

namespace Sys2Proof.Tests

open Sys2Proof Sys2Proof.Machine

/-! ## Helpers -/

/-- The `n` bytes of a hexadecimal number, first byte first. -/
def bytesOf (n v : Nat) : List Byte := (List.range n).map fun i => BitVec.ofNat 8 (v >>> (8 * (n - 1 - i)))

/-- A buffer that holds a byte sequence from an offset upwards and nothing else. -/
def memoryAt (a : Nat) (bs : List Byte) : Memory := bs.zipIdx.map fun p => (a + p.2, p.1)

/-- The example parameters of R10: the marker "STE-v1", no stretching, 16384 buffer bytes. -/
def exCfg : Params :=
  { bufLog := 6, stretchRounds := 0, markerLast := 5, markerBytes := bytesToVector 64 (bytesOf 6 0x5354452D7631) }

/-- After reset, with the example parameters. -/
def idle : State := { State.reset with cfg := exCfg }

/-- After a passing self-test. -/
def tested : State := { idle with stDone := true, stPass := true }

/-- The vault of the password "secret", STRETCH_ROUNDS = 0 (95_test_vectors.md 4.1). -/
def secretVault : Key := bytesToVector 32 (bytesOf 32 0xD3402CCF5C67EF4981B2AF779D720036450E0469643FBC827341DBF7FA43FBA1)

/-- The key of the password "secret", STRETCH_ROUNDS = 0 (95_test_vectors.md 4.1). -/
def secretKey : Key := bytesToVector 32 (bytesOf 32 0xE91085FCE29DDFA46056FABB76E4008DA8E020A5C89F2F50370A6FEF7DD07F1A)

/-- After a SET_PASSWORD of "secret". -/
def armed : State := { tested with keyValid := true, vault := secretVault }

/-- "Hello". -/
def hello : List Byte := bytesOf 5 0x48656C6C6F

/-- The token 00 01 .. 0F. -/
def token : Token := bytesToVector 16 (bytesOf 16 0x000102030405060708090A0B0C0D0E0F)

/-- The stored digest of the payload of 95_test_vectors.md 5.1. -/
def exDigest : Digest := bytesToVector 64 (bytesOf 64 0xF4DA91A3EAF64F201BDFF0ED6EA6EBB32AE8C4AA002E177BAC42EF9E4A3B5FD6E19B3E68A84D78687FD488636B2437B08588AFB7782EDEE857F0BBD67F474903)

/-- The same digest with bit 0 of its first byte flipped (95_test_vectors.md 5.3). -/
def badDigest : Digest := exDigest.set 0 0xF5

/-- The ciphertext of the payload of 95_test_vectors.md 5.1. -/
def exCipher : List Byte := bytesOf 32 0x9C310DAB8CD11BAC36760F55D2105696F7F689F4F9E5C3BBE3A7A408E2AC2775

/-- What that ciphertext decrypts to: the token, "Hello", and eleven zero bytes. -/
def exPlain : List Byte := token.toList ++ hello ++ zeros 11

/-- The payload of 95_test_vectors.md 5.1, with a stored digest. -/
def exPayload (d : Digest) : List Byte := exCfg.marker ++ d.toList ++ exCipher

/-- The latched command of a word and three operands. -/
def cmd (word src len dst : Nat) : Latched :=
  ⟨BitVec.ofNat 32 word, BitVec.ofNat 32 src, BitVec.ofNat 32 len, BitVec.ofNat 32 dst⟩

/-- A state with a command latched. -/
def running (s : State) (L : Latched) : State := { s with latched := some L }

/-- A state with the buffer a byte sequence at an offset. -/
def holding (s : State) (a : Nat) (bs : List Byte) : State := { s with buf := memoryAt a bs }

/-- A state with inputs to come. -/
def facing (s : State) (es : List Event) : State := { s with inputs := es }

/-- What one asks of the next state, where there is one. -/
def result {α : Type} (o : Host.Outcome State Fault Refusal) (f : State → α) : Option α :=
  match o with
  | .next t => some (f t)
  | .fault _ => none
  | .refused _ => none

/-! ## Well-formedness and decoding (R57 to R59) -/

theorem test_wf_accepts : CommandWord.wf ⟨0, 0x50⟩ = true := by decide

theorem test_wf_refuses_reserved : CommandWord.rsvZero ⟨1, 0x50⟩ = false ∧ CommandWord.wf ⟨1, 0x50⟩ = false := by decide

theorem test_wf_refuses_unassigned : CommandWord.opcAssigned ⟨0, 0x51⟩ = false ∧ CommandWord.wf ⟨0, 0x51⟩ = false := by
  decide

theorem test_decode_nop : decode 0b00000000000000000000000000000000#32 = .ok .nop := by decide
theorem test_decode_hash : decode 0b00000000000000000000000000000001#32 = .ok .hash := by decide
theorem test_decode_ecbEncrypt : decode 0b00000000000000000000000000010000#32 = .ok .ecbEncrypt := by decide
theorem test_decode_ecbDecrypt : decode 0b00000000000000000000000000010001#32 = .ok .ecbDecrypt := by decide
theorem test_decode_cbcEncrypt : decode 0b00000000000000000000000000100000#32 = .ok .cbcEncrypt := by decide
theorem test_decode_cbcDecrypt : decode 0b00000000000000000000000000100001#32 = .ok .cbcDecrypt := by decide
theorem test_decode_setPassword : decode 0b00000000000000000000000000110000#32 = .ok .setPassword := by decide
theorem test_decode_invalidate : decode 0b00000000000000000000000000110001#32 = .ok .invalidate := by decide
theorem test_decode_payloadEncrypt : decode 0b00000000000000000000000001000000#32 = .ok .payloadEncrypt := by decide
theorem test_decode_payloadDecrypt : decode 0b00000000000000000000000001000001#32 = .ok .payloadDecrypt := by decide
theorem test_decode_selftest : decode 0b00000000000000000000000001010000#32 = .ok .selftest := by decide

/-- Every gap of the opcode map that R59 lists, at its ends, and a reserved bit. -/
theorem test_decode_illegal :
    [0x02, 0x0F, 0x12, 0x1F, 0x22, 0x2F, 0x32, 0x3F, 0x42, 0x4F, 0x51, 0xFF].all
      (fun n => decode (BitVec.ofNat 32 n) = .error .unassignedOpcode) = true ∧
    decode 0x00000150 = .error .reservedNonzero ∧ decode 0x80000001 = .error .reservedNonzero := by decide

theorem test_decodeTableWord :
    decodeTableWord 32 0x41 = some .payloadDecrypt ∧ decodeTableWord 8 0x41 = some .payloadDecrypt ∧
    decodeTableWord 32 0x141 = none := by decide

/-- The step after `withFetchWord` runs the word: NOT_TESTED for HASH after reset (95_test_vectors.md 3.6, program P3). -/
theorem test_withFetchWord :
    result (step (idle.withFetchWord 32 0x01)) (fun t => (t.statusWord, t.intDone, t.inputs)) =
      some (0x00000200, true, []) := by decide

/-! ## The algorithms -/

/-- 95_test_vectors.md 2.1: a message that ends its only block, and the digest of "abc". -/
theorem test_hash_abc :
    hashOf [0x61, 0x62, 0x63] = bytesToVector 64 (bytesOf 64 0xddaf35a193617abacc417349ae20413112e6fa4e89a97ea20a9eeee64b55d39a2192992a274fc1a836ba3c23a3feebbd454d4423643ce80e2a9ac94fa54ca49f) := by
  decide +kernel

/-- 95_test_vectors.md 2.1: 112 bytes "a" need a second block. -/
theorem test_hash_two_blocks :
    hashOf (List.replicate 112 0x61) = bytesToVector 64 (bytesOf 64 0xc01d080efd492776a1c43bd23dd99d0a2e626d481e16782e75d54c2503b5dc32bd05f0f1ba33e568b88fd2d970929b719ecbb152f58f130a407c8830604b70ca) := by
  decide +kernel

/-- 95_test_vectors.md 3.4: S and some K words of the key schedule of key2. -/
theorem test_keySchedule_key2 :
    (let ks := keySchedule (bytesToVector 32 (bytesOf 32 0x0123456789ABCDEFFEDCBA987654321000112233445566778899AABBCCDDEEFF))
     (ks.s, ks.k[0], ks.k[1], ks.k[39])) =
      (⟨0x8E4447F7, 0x45661061, 0xB255BC4B, 0xB89FF6F2⟩, 0x5EC769BF, 0x44D13C60, 0xF0D54DCD) := by decide +kernel

/-- 95_test_vectors.md 4.1: the vault of "secret" holds its key. -/
theorem test_obfuscate_secret : obfuscate secretKey = secretVault ∧ deobfuscate secretVault = secretKey := by
  decide +kernel

/-! ## The commands -/

/-- R125: a NOP turns STATUS.ERR from 0x04 to 0x00. -/
theorem test_nop_clears_err :
    result (exec .nop (running { tested with err := .range } (cmd 0x00 0 0 0))) (fun t => (t.err, t.statusWord)) =
      some (.ok, 0x0000000C) := by decide

/-- R74's example: "abc" at 0, digest at 0x100. -/
theorem test_exec_hash :
    result (exec .hash (running (holding tested 0 [0x61, 0x62, 0x63]) (cmd 0x01 0 3 0x100)))
      (fun t => (t.err, t.dstLen, t.buf.read 0x100, t.buf.read 0x13F, t.buf.read 0x140)) =
      some (.ok, 64, some 0xDD, some 0x9F, none) := by decide +kernel

/-- 95_test_vectors.md 3.6: 16 zero bytes in place under the key of "secret". -/
theorem test_exec_ecbEncrypt :
    result (exec .ecbEncrypt (running (holding armed 0x40 (zeros 16)) (cmd 0x10 0x40 16 0x40)))
      (fun t => (t.dstLen, t.buf)) =
      some (16, memoryAt 0x40 (bytesOf 16 0xAF2A5C5AE6FC1C4B356F84FB4E8B4706)) := by decide +kernel

/-- 95_test_vectors.md 3.6: the input range is checked before the length, the output range after it. -/
theorem test_ecbEncrypt_errors :
    result (exec .ecbEncrypt (running armed (cmd 0x10 0x3FF8 17 0))) (·.err) = some .range ∧
    result (exec .ecbEncrypt (running armed (cmd 0x10 0 15 0x3FF8))) (·.err) = some .badLength ∧
    result (exec .ecbEncrypt (running armed (cmd 0x10 0 16 0x3FF1))) (·.err) = some .range := by decide

/-- 95_test_vectors.md 3.6: the decryption gives the zero bytes back. -/
theorem test_exec_ecbDecrypt :
    result (exec .ecbDecrypt (running (holding armed 0x40 (bytesOf 16 0xAF2A5C5AE6FC1C4B356F84FB4E8B4706)) (cmd 0x11 0x40 16 0x40)))
      (fun t => (t.dstLen, t.buf)) = some (16, memoryAt 0x40 (zeros 16)) := by decide +kernel

/-- 95_test_vectors.md 4.2: 17 bytes give two chained blocks. -/
theorem test_exec_cbcEncrypt :
    result (exec .cbcEncrypt (running (holding armed 0 (bytesOf 17 0x000102030405060708090A0B0C0D0E0F10)) (cmd 0x20 0 17 0)))
      (fun t => (t.dstLen, t.buf)) =
      some (32, memoryAt 0 (bytesOf 32 0x9C310DAB8CD11BAC36760F55D2105696CCAF728D4A69D02FA2EE8CF94D0BF606)) := by
  decide +kernel

/-- 95_test_vectors.md 4.3: no byte is written for an empty input, and the output range is checked at its full size. -/
theorem test_cbcEncrypt_lengths :
    result (exec .cbcEncrypt (running armed (cmd 0x20 0 17 0x3FE1))) (·.err) = some .range ∧
    result (exec .cbcDecrypt (running armed (cmd 0x21 0 17 0x3FE1))) (·.err) = some .badLength := by decide

/-- 95_test_vectors.md 4.2: the two blocks give the 17 bytes and the padding back. -/
theorem test_exec_cbcDecrypt :
    result (exec .cbcDecrypt (running
      (holding armed 0 (bytesOf 32 0x9C310DAB8CD11BAC36760F55D2105696CCAF728D4A69D02FA2EE8CF94D0BF606)) (cmd 0x21 0 32 0)))
      (fun t => (t.dstLen, t.buf)) =
      some (32, memoryAt 0 (bytesOf 17 0x000102030405060708090A0B0C0D0E0F10 ++ zeros 15)) := by decide +kernel

/-- 95_test_vectors.md 4.1 and 4.3: SET_PASSWORD "secret". -/
theorem test_exec_setPassword :
    result (exec .setPassword (running (holding tested 0 (bytesOf 6 0x736563726574)) (cmd 0x30 0 6 0)))
      (fun t => (t.vault, t.statusWord, t.dstLen)) = some (secretVault, 0x0000000E, 0) := by decide +kernel

/-- 95_test_vectors.md 4.1: one round of stretching. -/
theorem test_deriveKey_stretched :
    obfuscate (deriveKey 1 (bytesOf 6 0x736563726574)) = bytesToVector 32 (bytesOf 32 0xBDC4DA9439092C812DC1696B23F8BAA3EBE3726EF232EB023783468881664AA1) := by
  decide +kernel

/-- 95_test_vectors.md 4.3: INVALIDATE, gated or not. -/
theorem test_exec_invalidate :
    result (exec .invalidate (running armed (cmd 0x31 0 0 0))) (fun t => (t.vault, t.statusWord)) =
      some (zeroVault, 0x0000000C) ∧
    result (exec .invalidate (running idle (cmd 0x31 0 0 0))) (fun t => (t.vault, t.statusWord)) =
      some (zeroVault, 0x00000000) := by decide

/-- 95_test_vectors.md 5.1: the payload of "Hello". -/
theorem test_exec_payloadEncrypt :
    result (exec .payloadEncrypt
      (running { holding armed 0 hello with trng := [.bytes token] } (cmd 0x40 0 5 0)))
      (fun t => (t.dstLen, t.buf)) = some (102, memoryAt 0 (exPayload exDigest)) := by decide +kernel

/-- 95_test_vectors.md 5.5: no token, and an output that does not fit (no token is drawn for it). -/
theorem test_payloadEncrypt_errors :
    result (exec .payloadEncrypt (running { holding armed 0 hello with trng := [.unavailable] } (cmd 0x40 0 5 0x100)))
      (fun t => (t.err, t.dstLen, t.trng)) = some (.randomnessUnavailable, 0, []) ∧
    result (exec .payloadEncrypt (running { holding armed 0 hello with trng := [.unavailable] } (cmd 0x40 0 5 0x3FA0)))
      (fun t => (t.err, t.dstLen, t.trng)) = some (.range, 0, [.unavailable]) := by decide

/-- What two zero ciphertext blocks decrypt to under the key of "secret". -/
def zeroPlain : List Byte := cbcDec (keySchedule (deobfuscate secretVault)) (zeros 32)

/-- R117: a payload whose digest is that of its whole decrypted blocks opens to all but the token, at the last offset where
its bound fits. (The published payload of 95_test_vectors.md 5.1 needs twelve digests; `test_resolveFrom` takes its last
two.) -/
theorem test_exec_payloadDecrypt :
    result (exec .payloadDecrypt (running
      (holding armed 0 (exCfg.marker ++ (hashOf zeroPlain).toList ++ zeros 32)) (cmd 0x41 0 102 0x3FF0)))
      (fun t => (t.err, t.dstLen, (t.buf.read 0x3FEF).isSome, (t.buf.read 0x3FF0).isSome, (t.buf.read 0x3FFF).isSome)) =
      some (.ok, 16, false, true, true) := by decide +kernel

/-- 95_test_vectors.md 5.1: the search stops at n = 21, and n = 22 does not match. -/
theorem test_resolveFrom : resolveFrom exPlain exDigest 2 22 = some 21 := by decide +kernel

/-- 95_test_vectors.md 5.4 and 5.5: the lengths at the ends of each class, and the bound of the output range. -/
theorem test_payloadDecrypt_lengths :
    [5, 6, 7, 86, 87, 101].map (fun n => result (exec .payloadDecrypt
      (running (holding armed 0 (exPayload exDigest)) (cmd 0x41 0 n 0x100))) (·.err)) =
      [some .foreignFormat, some .ok, some .corrupted, some .corrupted, some .corrupted, some .corrupted] ∧
    result (exec .payloadDecrypt (running (holding armed 0 (exPayload exDigest)) (cmd 0x41 0 102 0x3FF1))) (·.err) =
      some .range := by decide +kernel

/-- 95_test_vectors.md 6.1: the second step of the harness, whose key is still zero. (The whole harness is a statement of
`Certificates.Slice0.Obligations`.) -/
theorem test_harness_two_steps :
    harness 2 (Vector.replicate 32 0) (Vector.replicate 16 0) (Vector.replicate 16 0) =
      some (bytesToVector 16 (bytesOf 16 0xD43BB7556EA32E46F2A282B7D45B4E0D)) := by decide +kernel

/-- R128, 95_test_vectors.md 6.1: the key of step 4 from the key and the plaintext of step 3. -/
theorem test_feedbackKey :
    feedbackKey (bytesToVector 16 (bytesOf 16 0xD43BB7556EA32E46F2A282B7D45B4E0D))
      (bytesToVector 32 (bytesOf 16 0x57FF739D4DC92C1BD7FC01700CC8216F ++ zeros 16)) =
      bytesToVector 32 (bytesOf 32 0xD43BB7556EA32E46F2A282B7D45B4E0D57FF739D4DC92C1BD7FC01700CC8216F) := by decide +kernel

/-! ## The host -/

/-- R20, R22, R23, R30: what the hardwired registers read as under the example parameters. -/
theorem test_hardwired_registers :
    [0x000, 0x004, 0x00C, 0x028, 0x02C, 0x030, 0x0FC].map (readAt idle) = [0x54465331, 16384, 0, 6, 0, 0, 0] := by decide

/-- R44: the ends of the windows, and a width that is none. -/
theorem test_bus_errors :
    [(4, 0xFE), (2, 0x8), (4, 0x100), (4, 0xFFFC), (1, 0xFFFF), (3, 0x10000), (2, 0x13FFF), (1, 0x14000)].map
      (fun p => (hostRead p.1 (BitVec.ofNat 17 p.2) idle).response) = List.replicate 8 (some .busError) := by decide

/-- R45: a 32-bit write is seen by byte reads, least significant byte first; R47: while BUSY it is ignored. -/
theorem test_buffer_write :
    (hostWrite 4 0x13FFC 0x11223344 idle).buf = [(0x3FFC, 0x44), (0x3FFD, 0x33), (0x3FFE, 0x22), (0x3FFF, 0x11)] ∧
    (hostRead 2 0x13FFE (hostWrite 4 0x13FFC 0x11223344 idle)).response = some (.data 0x1122) ∧
    (hostWrite 4 0x13FFC 0x11223344 (running idle (cmd 0 0 0 0))).buf = [] ∧
    (hostWrite 4 0x13FFC 0x11223344 (running idle (cmd 0 0 0 0))).intIgn = true := by decide

/-! ## Witnesses: states and operands that meet the hypotheses of the statements -/

theorem witness_DecodeOfEncodeIsTheCommand : Instr.selftest.wf = true := by decide

theorem witness_LegalWordIsTheWordOfItsCommand : decode 0x50 = .ok .selftest := by decide

theorem witness_IllegalWordIsIssuedAndEndsWithIllegalCmd :
    decode 0x51 = .error .unassignedOpcode ∧ decode 0x150 = .error .reservedNonzero ∧ idle.busy = false ∧
    (running idle (cmd 0x51 0 0 0)).latched = some (cmd 0x51 0 0 0) ∧ (cmd 0x51 0 0 0).cmd = 0x51 := by decide

/-- A host's read and write, an Engine's completion and no input at all, with and without a command latched. -/
theorem witness_StepRunsTheLatchedCommand :
    (facing idle [.host (.read 1 0x13FFF)]).inputs = [.host (.read 1 0x13FFF)] ∧
    (facing idle [.host (.write 4 0x0FC 0)]).inputs = [.host (.write 4 0x0FC 0)] ∧
    (running idle (cmd 0x50 0 0 0)).latched = some (cmd 0x50 0 0 0) ∧ decode (cmd 0x50 0 0 0).cmd = .ok .selftest ∧
    (running idle (cmd 0x50 0 0 0)).inputs = [] ∧
    (facing (running idle (cmd 0x50 0 0 0)) [.engine]).inputs = [.engine] ∧ idle.latched = none := by decide

/-- The state a step is taken from in several witnesses: a write to the last byte of the buffer is to come. -/
def writing : State := facing armed [.host (.write 1 0x13FFF 0xAB)]

theorem armed_inv : armed.Inv := by
  constructor <;> simp [armed, tested, idle, State.reset]

theorem witness_InvariantKeptByEveryStep : writing.Inv ∧ ∃ t, step writing = .next t :=
  ⟨by constructor <;> simp [writing, facing, armed, tested, idle, State.reset], _, rfl⟩

theorem witness_ResetLeavesTheResetValues :
    (facing (running armed (cmd 0x01 0 3 0)) [.reset]).inputs = [.reset] := by decide

theorem witness_NoStepChangesTheParameters : ∃ t, step writing = .next t := ⟨_, rfl⟩

/-- An offset just past each window, and a register access of the wrong width. -/
theorem witness_IllegalAccessGetsABusErrorAndChangesNothing :
    (facing idle [.host (.read 4 0x100)]).inputs = [.host (.read 4 0x100)] ∧
    ¬ LegalAccess exCfg (Access.read 4 0x100).place.1 (Access.read 4 0x100).place.2 ∧
    ¬ LegalAccess exCfg (Access.write 2 0x8 1).place.1 (Access.write 2 0x8 1).place.2 ∧
    ¬ LegalAccess exCfg (Access.read 1 0x14000).place.1 (Access.read 1 0x14000).place.2 ∧
    LegalAccess exCfg 4 0xFC ∧ LegalAccess exCfg 1 0x13FFF ∧ ∃ t, step (facing idle [.host (.read 4 0x100)]) = .next t := by
  refine ⟨rfl, ?_, ?_, ?_, ?_, ?_, _, rfl⟩ <;> unfold LegalAccess <;> decide

/-- Each clause at the ends of its range: the buffer window, an ignored register, a register that is not ignored, and
STATUS. -/
theorem witness_AccessesWhileBusyAreIgnored :
    (running armed (cmd 0x01 0 3 0)).busy = true ∧
    LegalBufferAccess (running armed (cmd 0x01 0 3 0)).cfg 4 (0x10000 : BitVec 17).toNat ∧
    LegalBufferAccess (running armed (cmd 0x01 0 3 0)).cfg 4 (0x13FFC : BitVec 17).toNat ∧
    (0x00C : BitVec 17).toNat ∈ [0x00C, 0x010, 0x014, 0x018] ∧ (0x018 : BitVec 17).toNat % 4 = 0 ∧
    (0x0FC : BitVec 17).toNat ≤ 0xFF ∧ (0x0FC : BitVec 17).toNat ∉ [0x00C, 0x010, 0x014, 0x018] ∧
    (0x0FC : BitVec 17).toNat ≠ 0x008 ∧ (0x008 : BitVec 17).toNat = 0x008 := by
  unfold LegalBufferAccess; decide

theorem witness_IdleBufferAccessesAreLittleEndian :
    armed.busy = false ∧ LegalBufferAccess armed.cfg 4 (0x10000 : BitVec 17).toNat ∧
    LegalBufferAccess armed.cfg 2 (0x13FFE : BitVec 17).toNat ∧ LegalBufferAccess armed.cfg 1 (0x13FFF : BitVec 17).toNat := by
  unfold LegalBufferAccess; decide

theorem witness_WritingCmdIssuesTheCommand :
    (facing idle [.host (.write 4 0x00C 0x50)]).inputs = [.host (.write 4 0x00C 0x50)] ∧
    (facing idle [.host (.write 4 0x00C 0x50)]).busy = false ∧
    (facing (running idle (cmd 0 0 0 0)) [.host (.write 4 0x00C 0x50)]).inputs = [.host (.write 4 0x00C 0x50)] ∧
    (facing (running idle (cmd 0 0 0 0)) [.host (.write 4 0x00C 0x50)]).busy = true ∧
    ∃ t, step (facing idle [.host (.write 4 0x00C 0x50)]) = .next t :=
  ⟨rfl, rfl, rfl, rfl, _, rfl⟩

theorem witness_OperandRegistersHoldWhatIsWritten :
    idle.busy = false ∧ ∃ t, engineStep (running idle (cmd 0x00 0 0 0)) = .next t := ⟨rfl, _, rfl⟩

theorem witness_ReadOnlyAndReservedOffsetsIgnoreWrites :
    (0x000 : BitVec 17).toNat ∉ [0x00C, 0x010, 0x014, 0x018, 0x020, 0x024] ∧
    (0x0FC : BitVec 17).toNat ≤ 0xFF ∧ (0x0FC : BitVec 17).toNat % 4 = 0 ∧
    (0x0FC : BitVec 17).toNat ∉ [0x00C, 0x010, 0x014, 0x018, 0x020, 0x024] ∧ (0x00C : BitVec 17).toNat = 0x00C ∧
    0x030 ≤ (0x030 : BitVec 17).toNat := by decide

/-- DONE is pending and enabled, and the host clears it, masks it, or the block is reset. -/
def interrupting (e : Event) : State := facing { idle with intDone := true, doneIe := true } [e]

theorem witness_InterruptStaysUntilClearedOrMasked :
    [.host (.write 4 0x020 1), .host (.write 4 0x024 0), Event.reset].all (fun e =>
      (interrupting e).irq && result (step (interrupting e)) State.irq == some false) = true := by decide

/-- The first and the last aligned offset of the register window. -/
theorem witness_RegistersReadAsTheMapSays :
    (0x000 : BitVec 17).toNat ≤ 0xFF ∧ (0x000 : BitVec 17).toNat % 4 = 0 ∧
    (0x0FC : BitVec 17).toNat ≤ 0xFF ∧ (0x0FC : BitVec 17).toNat % 4 = 0 := by decide

/-- A command latched (BUSY), the two ends of the buffer window, and the ends of the ignored registers. -/
theorem witness_InterruptOutputIsItsFormula :
    (running armed (cmd 0x01 0 3 0)).latched = some (cmd 0x01 0 3 0) ∧ (running armed (cmd 0x01 0 3 0)).busy = true ∧
    LegalBufferAccess (running armed (cmd 0x01 0 3 0)).cfg 4 (0x10000 : BitVec 17).toNat ∧
    LegalBufferAccess (running armed (cmd 0x01 0 3 0)).cfg 1 (0x13FFF : BitVec 17).toNat ∧
    (0x00C : BitVec 17).toNat ∈ [0x00C, 0x010, 0x014, 0x018] ∧
    (0x018 : BitVec 17).toNat ∈ [0x00C, 0x010, 0x014, 0x018] := by
  unfold LegalBufferAccess; decide

/-- An issue, and an access that changes nothing of STATUS. -/
theorem witness_HostAccessesChangeOnlyBusyOfStatus :
    ((facing idle [.host (.write 4 0x00C 0x50)]).inputs = [.host (.write 4 0x00C 0x50)] ∧
      ∃ t, step (facing idle [.host (.write 4 0x00C 0x50)]) = .next t) ∧
    (facing idle [.host (.read 4 0x008)]).inputs = [.host (.read 4 0x008)] ∧
      ∃ t, step (facing idle [.host (.read 4 0x008)]) = .next t :=
  ⟨⟨rfl, _, rfl⟩, rfl, _, rfl⟩

theorem witness_HostAccessesWhileBusyDoNotAffectTheCommand :
    (facing (running armed (cmd 0x01 0 3 0))
      (hostEvents [.write 1 0x10000 0x61, .write 4 0x00C 0x31, .read 4 0x100] ++ [.engine])).latched =
      some (cmd 0x01 0 3 0) := by decide

theorem witness_CompletionHasTheCommonEffects :
    (running armed (cmd 0x01 0 3 0)).latched = some (cmd 0x01 0 3 0) := by decide

/-- A command that ends with an error; SELFTEST's own clause has the same hypotheses but `i = selftest`, where the error
needs hardware that fails (R129). -/
theorem witness_FailedCommandHasNoOtherEffect :
    (running idle (cmd 0x01 0 3 0)).latched = some (cmd 0x01 0 3 0) ∧
    ∃ t, exec .hash (running idle (cmd 0x01 0 3 0)) = .next t ∧ t.err ≠ .ok := ⟨rfl, _, rfl, by decide⟩

theorem witness_ReportedErrorIsTheFirstFailingCheck :
    (running armed (cmd 0x41 0 102 0)).latched = some (cmd 0x41 0 102 0) ∧
    (running armed (cmd 0x51 0 0 0)).latched = some (cmd 0x51 0 0 0) := by decide

theorem witness_OutputStaysInItsRange :
    ((running armed (cmd 0x20 0 0 0x4000)).latched = some (cmd 0x20 0 0 0x4000) ∧
      ∃ t, exec .cbcEncrypt (running armed (cmd 0x20 0 0 0x4000)) = .next t) ∧
    ∃ t, exec .hash (running idle (cmd 0x01 0 3 0)) = .next t ∧ t.err ≠ .ok :=
  ⟨⟨rfl, _, rfl⟩, _, rfl, by decide⟩

theorem witness_SelftestGateRefusesGatedCommands :
    (running idle (cmd 0x40 0 0 0)).latched = some (cmd 0x40 0 0 0) ∧ gated .payloadEncrypt = true ∧
    (running idle (cmd 0x40 0 0 0)).stPass = false ∧
    (∃ t, exec .nop (running idle (cmd 0x00 0 0 0)) = .next t) := ⟨rfl, rfl, rfl, _, rfl⟩

theorem witness_InvalidVaultRefusesKeyedCommands :
    (running tested (cmd 0x41 0 6 0)).latched = some (cmd 0x41 0 6 0) ∧ keyed .payloadDecrypt = true ∧
    (running tested (cmd 0x41 0 6 0)).stPass = true ∧ (running tested (cmd 0x41 0 6 0)).keyValid = false := by decide

/-- The longest plaintext that fits at the end of the buffer, one byte more, and the empty plaintext. -/
theorem witness_TokenIsDrawnOnceByNonEmptyPayloadEncrypt :
    (∃ t, exec .payloadEncrypt (running armed (cmd 0x40 0 16 0x3F9A)) = .next t) ∧
    0x3F9A + (exCfg.markerLen + 64 + ceil16 (16 + 16)) = exCfg.bufBytes ∧
    exCfg.bufBytes < 0x3F9A + (exCfg.markerLen + 64 + ceil16 (16 + 17)) ∧
    (∃ t, exec .payloadEncrypt (running armed (cmd 0x40 0 17 0x3F9A)) = .next t) ∧
    (∃ t, exec .payloadEncrypt (running armed (cmd 0x40 0 0 0)) = .next t) :=
  ⟨⟨_, rfl⟩, by decide, by decide, ⟨_, rfl⟩, _, rfl⟩

theorem witness_NopOnlyCompletes : (running armed (cmd 0x00 0 0 0)).latched = some (cmd 0x00 0 0 0) := by decide

/-- An empty input at the end of the buffer, and the last output range. -/
theorem witness_HashWritesTheDigestOfItsInput :
    (running tested (cmd 0x01 0x4000 0 0x3FC0)).latched = some (cmd 0x01 0x4000 0 0x3FC0) ∧
    (running tested (cmd 0x01 0x4000 0 0x3FC0)).stPass = true ∧
    (cmd 0x01 0x4000 0 0x3FC0).src.toNat + (cmd 0x01 0x4000 0 0x3FC0).len.toNat ≤ exCfg.bufBytes ∧
    (cmd 0x01 0x4000 0 0x3FC0).dst.toNat + 64 ≤ exCfg.bufBytes := by decide

theorem witness_EcbCommandsWriteTheBlockUnderTheVaultKey :
    (running armed (cmd 0x10 0 16 0x3FF0)).latched = some (cmd 0x10 0 16 0x3FF0) ∧ armed.stPass = true ∧
    armed.keyValid = true ∧ (cmd 0x10 0 16 0x3FF0).len.toNat = 16 ∧
    (cmd 0x10 0 16 0x3FF0).src.toNat + 16 ≤ exCfg.bufBytes ∧ (cmd 0x10 0 16 0x3FF0).dst.toNat + 16 ≤ exCfg.bufBytes := by
  decide

theorem witness_CbcEncryptWritesTheChainedCiphertext :
    (running armed (cmd 0x20 0 17 0x3FE0)).latched = some (cmd 0x20 0 17 0x3FE0) ∧ armed.stPass = true ∧
    armed.keyValid = true ∧ (cmd 0x20 0 17 0x3FE0).src.toNat + (cmd 0x20 0 17 0x3FE0).len.toNat ≤ exCfg.bufBytes ∧
    (cmd 0x20 0 17 0x3FE0).dst.toNat + ceil16 (cmd 0x20 0 17 0x3FE0).len.toNat ≤ exCfg.bufBytes := by decide

theorem witness_CbcDecryptWritesTheUnchainedPlaintext :
    (running armed (cmd 0x21 0 32 0x3FE0)).latched = some (cmd 0x21 0 32 0x3FE0) ∧ armed.stPass = true ∧
    armed.keyValid = true ∧ (cmd 0x21 0 32 0x3FE0).len.toNat % 16 = 0 ∧
    (cmd 0x21 0 32 0x3FE0).src.toNat + (cmd 0x21 0 32 0x3FE0).len.toNat ≤ exCfg.bufBytes ∧
    (cmd 0x21 0 32 0x3FE0).dst.toNat + (cmd 0x21 0 32 0x3FE0).len.toNat ≤ exCfg.bufBytes := by decide

theorem witness_SetPasswordStoresTheDerivedKey :
    (running tested (cmd 0x30 0x3FFA 6 0)).latched = some (cmd 0x30 0x3FFA 6 0) ∧ tested.stPass = true ∧
    (cmd 0x30 0x3FFA 6 0).src.toNat + (cmd 0x30 0x3FFA 6 0).len.toNat ≤ exCfg.bufBytes := by decide

theorem witness_InvalidateZeroesTheVault :
    (running idle (cmd 0x31 0 0 0)).latched = some (cmd 0x31 0 0 0) := by decide

theorem witness_PayloadEncryptOfNothingWritesTheMarker :
    (running armed (cmd 0x40 0x4000 0 0x3FFA)).latched = some (cmd 0x40 0x4000 0 0x3FFA) ∧ armed.stPass = true ∧
    armed.keyValid = true ∧ (cmd 0x40 0x4000 0 0x3FFA).len = 0 ∧
    (cmd 0x40 0x4000 0 0x3FFA).src.toNat ≤ exCfg.bufBytes ∧
    (cmd 0x40 0x4000 0 0x3FFA).dst.toNat + exCfg.marker.length ≤ exCfg.bufBytes := by decide

theorem witness_PayloadEncryptWritesMarkerDigestAndCiphertext :
    (running armed (cmd 0x40 0 16 0x3F9A)).latched = some (cmd 0x40 0 16 0x3F9A) ∧ armed.stPass = true ∧
    armed.keyValid = true ∧ (cmd 0x40 0 16 0x3F9A).len ≠ 0 ∧
    (cmd 0x40 0 16 0x3F9A).src.toNat + (cmd 0x40 0 16 0x3F9A).len.toNat ≤ exCfg.bufBytes ∧
    (cmd 0x40 0 16 0x3F9A).dst.toNat + (exCfg.marker.length + 64 + ceil16 (16 + (cmd 0x40 0 16 0x3F9A).len.toNat)) ≤
      exCfg.bufBytes ∧
    { armed with trng := [.bytes token] }.trngAnswer = .bytes token ∧
    { armed with trng := [.unavailable] }.trngAnswer = .unavailable ∧
    { armed with trng := [.bytes token, .unavailable] }.trng = .bytes token :: [.unavailable] ∧ armed.trng = [] := by decide

theorem witness_PayloadDecryptOfTheMarkerIsEmpty :
    (running (holding armed 0 exCfg.marker) (cmd 0x41 0 6 0x4000)).latched = some (cmd 0x41 0 6 0x4000) ∧
    armed.stPass = true ∧ armed.keyValid = true ∧
    (cmd 0x41 0 6 0x4000).src.toNat + (cmd 0x41 0 6 0x4000).len.toNat ≤ exCfg.bufBytes ∧
    (cmd 0x41 0 6 0x4000).dst.toNat ≤ exCfg.bufBytes ∧
    (running (holding armed 0 exCfg.marker) (cmd 0x41 0 6 0x4000)).memRead 0 6 = exCfg.marker := by decide

/-- The hypotheses at the last offset where the bound fits, with the digest that matches at once and with one that never
does. -/
theorem witness_PayloadDecryptWritesTheVerifiedText :
    (running (holding armed 0 (exCfg.marker ++ badDigest.toList ++ zeros 32)) (cmd 0x41 0 102 0x3FF0)).latched =
      some (cmd 0x41 0 102 0x3FF0) ∧ armed.stPass = true ∧ armed.keyValid = true ∧
    (cmd 0x41 0 102 0x3FF0).src.toNat + (cmd 0x41 0 102 0x3FF0).len.toNat ≤ exCfg.bufBytes ∧
    (running (holding armed 0 (exCfg.marker ++ badDigest.toList ++ zeros 32)) (cmd 0x41 0 102 0x3FF0)).memRead 0 102 =
      exCfg.marker ++ badDigest.toList ++ zeros 32 ∧
    (running (holding armed 0 (exCfg.marker ++ (hashOf zeroPlain).toList ++ zeros 32)) (cmd 0x41 0 102 0x3FF0)).memRead 0 102 =
      exCfg.marker ++ (hashOf zeroPlain).toList ++ zeros 32 ∧
    (zeros 32).length % 16 = 0 ∧ 32 ≤ (zeros 32).length ∧
    (cmd 0x41 0 102 0x3FF0).dst.toNat + ((zeros 32).length - 16) ≤ exCfg.bufBytes ∧
    resolvePadding zeroPlain (hashOf zeroPlain) = some 32 ∧ resolvePadding zeroPlain badDigest = none := by
  decide +kernel

theorem witness_SelftestWritesItsResult :
    (running idle (cmd 0x50 0 0 0)).latched = some (cmd 0x50 0 0 0) := by decide

/-- A reset, a host access, a SET_PASSWORD that succeeds, an INVALIDATE, another command, and an idle Engine. -/
theorem witness_VaultFollowsItsStateMachine :
    (∃ t, step (facing armed [.reset]) = .next t) ∧ (∃ t, step writing = .next t) ∧
    (∃ t, step (running tested (cmd 0x30 0 0 0)) = .next t ∧ t.err = .ok) ∧ decode 0x30 = .ok .setPassword ∧
    (∃ t, step (running armed (cmd 0x31 0 0 0)) = .next t) ∧ decode 0x31 = .ok .invalidate ∧
    (∃ t, step (running idle (cmd 0x30 0 0 0)) = .next t ∧ t.err ≠ .ok) ∧ (∃ t, step idle = .next t) :=
  ⟨⟨_, rfl⟩, ⟨_, rfl⟩, ⟨_, rfl, rfl⟩, by decide, ⟨_, rfl⟩, by decide, ⟨_, rfl, by decide⟩, _, rfl⟩

theorem witness_SelftestStateIsWrittenBySelftestAndReset :
    (∃ t, step (running idle (cmd 0x50 0 0 0)) = .next t) ∧ (∃ t, step (facing armed [.reset]) = .next t) ∧
    (armed.stPass = true → armed.stDone = true) := ⟨⟨_, rfl⟩, ⟨_, rfl⟩, fun _ => rfl⟩

theorem witness_MessageScheduleFollowsItsRecurrence : (zeros 128).length = 128 ∧ 16 ≤ 16 ∧ 79 < 80 := by
  decide +kernel

/-- The last block of a padded input, and of a whole one. -/
theorem witness_ChainedModeChainsEachBlock :
    16 * 1 < ceil16 (zeros 17).length ∧ (zeros 32).length % 16 = 0 ∧ 16 * 1 < (zeros 32).length := by decide

/-- The clauses of the chained mode's laws: whole blocks, and two inputs with a common first block. -/
theorem witness_ChainedModeLaws :
    (zeros 32).length % 16 = 0 ∧
    (zeroExt (zeros 16 ++ [1])).take (16 * 1) = (zeroExt (zeros 16 ++ [2])).take (16 * 1) := by decide

theorem witness_ResolvePaddingFindsTheLongestMatch : 16 ≤ (zeros 16).length ∧ 16 ≤ (zeros 32).length := by decide

theorem witness_PayloadsWithDifferentTokensDiffer : token ≠ Vector.replicate 16 0xFF := by decide

/-- A plaintext of a whole number of blocks at the end of the buffer, decrypted over itself. -/
theorem witness_PayloadRoundTrip :
    (running { armed with trng := [.bytes token] } (cmd 0x40 0 16 0x3F9A)).latched = some (cmd 0x40 0 16 0x3F9A) ∧
    armed.stPass = true ∧ armed.keyValid = true ∧ (cmd 0x40 0 16 0x3F9A).len ≠ 0 ∧
    (cmd 0x40 0 16 0x3F9A).src.toNat + (cmd 0x40 0 16 0x3F9A).len.toNat ≤ exCfg.bufBytes ∧
    (cmd 0x40 0 16 0x3F9A).dst.toNat + (exCfg.marker.length + 64 + ceil16 (16 + (cmd 0x40 0 16 0x3F9A).len.toNat)) ≤
      exCfg.bufBytes ∧
    { armed with trng := [.bytes token] }.trngAnswer = .bytes token ∧
    (cmd 0x41 0x3F9A 102 0).src = (cmd 0x40 0 16 0x3F9A).dst ∧
    (cmd 0x41 0x3F9A 102 0).len.toNat = exCfg.marker.length + 64 + ceil16 (16 + (cmd 0x40 0 16 0x3F9A).len.toNat) ∧
    (cmd 0x41 0x3F9A 102 0).dst.toNat + (ceil16 (16 + (cmd 0x40 0 16 0x3F9A).len.toNat) - 16) ≤ exCfg.bufBytes := by
  decide

end Sys2Proof.Tests
end

section
/-! PROOF. The register window (10_state.md R20, R21): every register has one offset, an aligned access of the window
reads or writes there, and a write changes something at CMD, the operand registers, INT_STATUS and INT_ENABLE only. -/

namespace Sys2Proof.Machine

/-- The offset of a register (R20). -/
def HostReg.offset : HostReg → Nat
  | .id            => 0x000
  | .bufSize       => 0x004
  | .status        => 0x008
  | .cmd           => 0x00C
  | .srcAddr       => 0x010
  | .srcLen        => 0x014
  | .dstAddr       => 0x018
  | .dstLen        => 0x01C
  | .intStatus     => 0x020
  | .intEnable     => 0x024
  | .markerLen     => 0x028
  | .stretchRounds => 0x02C

@[simp] theorem registerAt_offset (r : HostReg) : registerAt r.offset = some r := by
  cases r <;> rfl

/-- The register map gives each register its one offset (R20). -/
theorem registerAt_eq_some {o : Nat} {r : HostReg} : registerAt o = some r ↔ o = r.offset := by
  constructor
  · intro h
    unfold registerAt at h
    split at h <;> cases h <;> rfl
  · rintro rfl
    exact registerAt_offset r

theorem HostReg.offset_lt (r : HostReg) : r.offset < 0x030 := by
  cases r <;> decide

/-- From 0x030 on every offset of the register window is reserved (R20). -/
theorem registerAt_of_reserved {o : Nat} (h : 0x030 ≤ o) : registerAt o = none := by
  cases hr : registerAt o with
  | none => rfl
  | some r =>
    have : o = r.offset := registerAt_eq_some.mp hr
    have := r.offset_lt
    omega

/-- A write to a register at none of the six writable offsets changes nothing (R21). -/
theorem writeRegister_of_readOnly {r : HostReg} (h : r.offset ∉ [0x00C, 0x010, 0x014, 0x018, 0x020, 0x024])
    (v : Word32) (s : State) : writeRegister v s r = s := by
  cases r with
  | id | bufSize | status | dstLen | markerLen | stretchRounds => rfl
  | cmd | srcAddr | srcLen | dstAddr | intStatus | intEnable => exact absurd (by decide) h

/-- A write at any offset but those six changes nothing: it is a read-only register's or reserved (R20, R21). -/
theorem writeAt_of_readOnly {o : Nat} (h : o ∉ [0x00C, 0x010, 0x014, 0x018, 0x020, 0x024]) (v : Word32)
    (s : State) : writeAt v s o = s := by
  unfold writeAt
  cases hr : registerAt o with
  | none => rfl
  | some r => exact writeRegister_of_readOnly (registerAt_eq_some.mp hr ▸ h) v s

/-- CMD reads as 0 (R25). -/
theorem readAt_cmd (s : State) : readAt s 0x00C = 0 := rfl

/-- A reserved offset reads as 0 (R20). -/
theorem readAt_of_reserved {o : Nat} (h : 0x030 ≤ o) (s : State) : readAt s o = 0 := by
  simp [readAt, registerAt_of_reserved h]

/-- Every aligned 32-bit access of the register window is legal (R44 (a)). -/
theorem legalRegisterAccess_of_aligned {o : Nat} (hle : o ≤ 0xFF) (hal : o % 4 = 0) :
    legalRegisterAccess 4 o = true := by
  have : o < registerWindow := Nat.lt_succ_of_le hle
  simp [legalRegisterAccess, this, hal]

theorem hostRead_of_aligned {o : BitVec 17} (hle : o.toNat ≤ 0xFF) (hal : o.toNat % 4 = 0) (s : State) :
    hostRead 4 o s = s.respond (.data (readAt s o.toNat)) := by
  simp [hostRead, legalRegisterAccess_of_aligned hle hal]

theorem hostWrite_of_aligned {o : BitVec 17} (hle : o.toNat ≤ 0xFF) (hal : o.toNat % 4 = 0) (v : Word32) (s : State) :
    hostWrite 4 o v s = (writeAt v s o.toNat).respond .done := by
  simp [hostWrite, legalRegisterAccess_of_aligned hle hal]

end Sys2Proof.Machine

open Sys2Proof Sys2Proof.Machine

/-- Settles O16: an aligned write is `writeAt`, which changes nothing at an offset of no writable register, and an aligned
read is `readAt`, which is 0 at CMD and at every reserved offset. -/
theorem readOnlyAndReservedOffsetsIgnoreWrites : Obligations.ReadOnlyAndReservedOffsetsIgnoreWrites := by
  intro s o hle hal
  constructor
  · intro hro v
    rw [hostWrite_of_aligned hle hal, writeAt_of_readOnly hro]
    rfl
  · intro hzero
    have hread : readAt s o.toNat = 0 := by
      rcases hzero with hcmd | hres
      · rw [hcmd, readAt_cmd]
      · exact readAt_of_reserved hres s
    rw [hostRead_of_aligned hle hal, hread]
    rfl
end

section
/-! PROOF. Who writes ST_DONE and ST_PASS (10_state.md R36): no host access, no illegal word and no command but SELFTEST
does, and SELFTEST sets ST_DONE whatever its result (45_selftest_and_control.md R129). -/

namespace Sys2Proof.Machine

/-- With no input left there is nothing to take. -/
theorem popInput_of_nil {s : State} (h : s.inputs = []) : s.popInput = s := by
  cases s
  simp_all [State.popInput]

/-- What a step can do (R9): a host access, a reset, or the Engine's step. -/
theorem step_cases {s t : State} (h : step s = .next t) :
    (∃ a rest, s.inputs = .host a :: rest ∧ t = hostAccess a s.popInput) ∨
    (∃ rest, s.inputs = .reset :: rest ∧ t = s.popInput.takeReset) ∨
    ((s.inputs = [] ∨ ∃ rest, s.inputs = .engine :: rest) ∧ engineStep s.popInput = .next t) := by
  unfold step at h
  split at h
  next a rest hin => cases h; exact .inl ⟨a, rest, hin, rfl⟩
  next rest hin => exact .inr (.inr ⟨.inr ⟨rest, hin⟩, h⟩)
  next rest hin => cases h; exact .inr (.inl ⟨rest, hin, rfl⟩)
  next hin => exact .inr (.inr ⟨.inl hin, (popInput_of_nil hin).symm ▸ h⟩)

/-- `t` has the ST_DONE and the ST_PASS of `s`. -/
def State.SameSelftest (s t : State) : Prop := t.stDone = s.stDone ∧ t.stPass = s.stPass

theorem writeAt_sameSelftest (v : Word32) (s : State) (o : Nat) : s.SameSelftest (writeAt v s o) := by
  rcases writeAt_cases v s o with
    h | ⟨_, h⟩ | ⟨_, h⟩ | ⟨_, h⟩ | ⟨_, h⟩ | ⟨_, h⟩ | h | h <;> simp [State.SameSelftest, h]

/-- No host access changes the self-test state. -/
theorem hostAccess_sameSelftest (a : Access) (s : State) : s.SameSelftest (hostAccess a s) := by
  cases a with
  | read w o =>
    rcases hostRead_cases w o s with ⟨_, h⟩ | ⟨_, _, _, h⟩ | ⟨_, _, _, h⟩ | ⟨_, _, h⟩ <;>
      simp [State.SameSelftest, hostAccess, h]
  | write w o v =>
    rcases hostWrite_cases w o v s with ⟨_, h⟩ | ⟨_, _, _, h⟩ | ⟨_, _, _, h⟩ | ⟨_, _, h⟩
    · simpa [State.SameSelftest, hostAccess, h] using writeAt_sameSelftest v s o.toNat
    all_goals simp [State.SameSelftest, hostAccess, h]

theorem openPayload_sameSelftest (L : Latched) (p : List Byte) (s : State) :
    s.SameSelftest (openPayload L p s) := by
  rcases openPayload_cases L p s with h | ⟨_, _, h⟩ <;> simp [State.SameSelftest, h]

theorem parsePayload_sameSelftest (L : Latched) (p : List Byte) (s : State) :
    s.SameSelftest (parsePayload L p s) := by
  rcases parsePayload_cases L p s with ⟨_, _, h⟩ | ⟨_, _, _, h⟩ | ⟨_, _, _, _, h⟩
  · simp [State.SameSelftest, h]
  · simp [State.SameSelftest, h]
  · exact h ▸ openPayload_sameSelftest L p s

theorem payloadDecryptRule_sameSelftest (L : Latched) (s : State) :
    s.SameSelftest (payloadDecryptRule L s) := by
  rcases payloadDecryptRule_cases L s with ⟨_, _, h⟩ | ⟨_, _, _, h⟩
  · simp [State.SameSelftest, h]
  · simpa [State.SameSelftest, h] using parsePayload_sameSelftest L (s.input L) s.noteRead

/-- No command but SELFTEST changes the self-test state, whether it succeeds or ends with an error. -/
theorem ruleOf_sameSelftest {i : Instr} (hi : i ≠ .selftest) (L : Latched) (s : State) :
    s.SameSelftest (ruleOf i L s) := by
  cases i with
  | nop => exact ⟨rfl, rfl⟩
  | hash =>
    rcases hashRule_cases L s with ⟨_, _, h⟩ | ⟨_, _, _, h⟩ <;> simp [State.SameSelftest, ruleOf, h]
  | ecbEncrypt =>
    rcases ecbEncryptRule_cases L s with ⟨_, _, h⟩ | ⟨_, _, _, _, _, h⟩ <;> simp [State.SameSelftest, ruleOf, h]
  | ecbDecrypt =>
    rcases ecbDecryptRule_cases L s with ⟨_, _, h⟩ | ⟨_, _, _, _, _, h⟩ <;> simp [State.SameSelftest, ruleOf, h]
  | cbcEncrypt =>
    rcases cbcEncryptRule_cases L s with ⟨_, _, h⟩ | ⟨_, _, _, _, h⟩ <;> simp [State.SameSelftest, ruleOf, h]
  | cbcDecrypt =>
    rcases cbcDecryptRule_cases L s with ⟨_, _, h⟩ | ⟨_, _, _, _, _, h⟩ <;> simp [State.SameSelftest, ruleOf, h]
  | setPassword =>
    rcases setPasswordRule_cases L s with ⟨_, _, h⟩ | ⟨_, _, h⟩ <;> simp [State.SameSelftest, ruleOf, h]
  | invalidate => exact ⟨rfl, rfl⟩
  | payloadEncrypt =>
    rcases payloadEncryptRule_cases L s with
      ⟨_, _, h⟩ | ⟨_, _, _, _, _, h⟩ | ⟨_, _, _, _, _, _, h⟩ | ⟨_, _, _, _, _, _, _, h⟩ <;>
      simp [State.SameSelftest, ruleOf, h]
  | payloadDecrypt => exact payloadDecryptRule_sameSelftest L s
  | selftest => exact absurd rfl hi

/-- SELFTEST sets ST_DONE whatever its result (R129). -/
theorem selftestRule_stDone (L : Latched) (s : State) : (selftestRule L s).stDone = true := by
  simp only [selftestRule]
  split
  · simp
  · simp

/-- The Engine's step changes the self-test state only where it completes a SELFTEST, which sets ST_DONE. -/
theorem engineStep_selftest {s t : State} (h : engineStep s = .next t) :
    s.SameSelftest t ∨ ∃ L, s.latched = some L ∧ decode L.cmd = .ok .selftest ∧ t.stDone = true := by
  rcases engineStep_cases s with ⟨_, hw⟩ | ⟨_, _, _, _, he⟩ | ⟨L, i, hL, hd, hr⟩
  · cases hw.symm.trans h
    exact .inl ⟨rfl, rfl⟩
  · cases he.symm.trans h
    exact .inl ⟨rfl, rfl⟩
  · cases hr.symm.trans h
    by_cases hi : i = .selftest
    · subst hi
      exact .inr ⟨L, hL, hd, selftestRule_stDone L s⟩
    · exact .inl (ruleOf_sameSelftest hi L s)

/-- What a step does to the self-test state (R36): it keeps it, or is a reset that clears it, or the Engine's step that
completes a SELFTEST. -/
theorem step_selftest {s t : State} (h : step s = .next t) :
    s.SameSelftest t ∨
    ((∃ rest, s.inputs = .reset :: rest) ∧ t.stDone = false ∧ t.stPass = false) ∨
    ((s.inputs = [] ∨ ∃ rest, s.inputs = .engine :: rest) ∧
      ∃ L, s.latched = some L ∧ decode L.cmd = .ok .selftest ∧ t.stDone = true) := by
  rcases step_cases h with ⟨a, _, _, rfl⟩ | ⟨rest, hin, rfl⟩ | ⟨hin, he⟩
  · exact .inl (hostAccess_sameSelftest a s.popInput)
  · exact .inr (.inl ⟨⟨rest, hin⟩, rfl, rfl⟩)
  · rcases engineStep_selftest he with hsame | hrun
    · exact .inl hsame
    · exact .inr (.inr ⟨hin, hrun⟩)

end Sys2Proof.Machine

open Sys2Proof Sys2Proof.Machine

/-- Settles O44: the step's three possible effects on the self-test state, each of which keeps "ST_PASS only with
ST_DONE": the first by the premise, the reset because ST_PASS is 0, the SELFTEST because ST_DONE is 1. -/
theorem selftestStateIsWrittenBySelftestAndReset : Obligations.SelftestStateIsWrittenBySelftestAndReset := by
  intro s t h
  have heffect := step_selftest h
  refine ⟨heffect, fun hprem hpass => ?_⟩
  rcases heffect with ⟨hdone, hkept⟩ | ⟨_, _, hclear⟩ | ⟨_, _, _, _, hdone⟩
  · exact hdone.trans (hprem (hkept ▸ hpass))
  · exact absurd hpass (by simp [hclear])
  · exact hdone
end

section
/-! PROOF. The host's access to the buffer and to the register window, idle and BUSY (20_memory.md R44 to R48): what a
legal buffer access does, which register accesses the latched command changes, and the little-endian order of R45. -/

namespace Sys2Proof.Machine

/-- The model's check of a buffer access is R44 (b). -/
theorem legalBufferAccess_iff {c : Params} {w o : Nat} :
    legalBufferAccess c w o = true ↔ LegalBufferAccess c w o := by
  simp only [legalBufferAccess, Bool.and_eq_true, Bool.or_eq_true, beq_iff_eq, decide_eq_true_eq, and_assoc, or_assoc]
  rfl

/-- The two windows of R44 are disjoint. -/
theorem legalRegisterAccess_of_buffer {c : Params} {w o : Nat} (h : LegalBufferAccess c w o) :
    legalRegisterAccess w o = false := by
  obtain ⟨-, hbase, -, -⟩ := h
  have : ¬ o < registerWindow := by unfold registerWindow; omega
  simp [legalRegisterAccess, this]

section BufferAccess

variable {s : State} {w : Nat} {o : BitVec 17} (hl : LegalBufferAccess s.cfg w o.toNat)
include hl

theorem hostRead_buffer_of_busy (hb : s.busy = true) : hostRead w o s = s.setIgn.respond (.data 0) := by
  simp [hostRead, legalRegisterAccess_of_buffer hl, legalBufferAccess_iff.mpr hl, hb]

theorem hostWrite_buffer_of_busy (hb : s.busy = true) (v : Word32) :
    hostWrite w o v s = s.setIgn.respond .done := by
  simp [hostWrite, legalRegisterAccess_of_buffer hl, legalBufferAccess_iff.mpr hl, hb]

theorem hostRead_buffer_of_idle (hb : s.busy = false) :
    hostRead w o s = s.noteRead.respond (.data (BitVec.ofNat 32 (leValue (s.memRead (o.toNat - bufBase) w)))) := by
  simp [hostRead, legalRegisterAccess_of_buffer hl, legalBufferAccess_iff.mpr hl, hb]

theorem hostWrite_buffer_of_idle (hb : s.busy = false) (v : Word32) :
    hostWrite w o v s = (s.memWrite (o.toNat - bufBase) (leBytes w v)).respond .done := by
  simp [hostWrite, legalRegisterAccess_of_buffer hl, legalBufferAccess_iff.mpr hl, hb]

end BufferAccess

/-- While BUSY a write to CMD or to an operand register only sets IGN (R47). -/
theorem writeAt_of_busy {o : Nat} (ho : o ∈ [0x00C, 0x010, 0x014, 0x018]) {s : State} (hb : s.busy = true)
    (v : Word32) : writeAt v s o = s.setIgn := by
  simp only [List.mem_cons, List.not_mem_nil, or_false] at ho
  rcases ho with rfl | rfl | rfl | rfl <;> exact if_pos hb

/-- A write to any other register neither depends on the latched command nor changes it. -/
theorem writeRegister_withLatched {r : HostReg} (hr : r.offset ∉ [0x00C, 0x010, 0x014, 0x018]) (v : Word32)
    (s : State) (L : Option Latched) :
    writeRegister v { s with latched := L } r = { writeRegister v s r with latched := L } := by
  cases r with
  | cmd | srcAddr | srcLen | dstAddr => exact absurd (by decide) hr
  | id | bufSize | status | dstLen | intStatus | intEnable | markerLen | stretchRounds => rfl

theorem writeAt_withLatched {o : Nat} (ho : o ∉ [0x00C, 0x010, 0x014, 0x018]) (v : Word32) (s : State)
    (L : Option Latched) : writeAt v { s with latched := L } o = { writeAt v s o with latched := L } := by
  unfold writeAt
  cases hr : registerAt o with
  | none => rfl
  | some r => exact writeRegister_withLatched (registerAt_eq_some.mp hr ▸ ho) v s L

/-- STATUS, which shows BUSY, is the only register whose value depends on the latched command (R24). -/
theorem readRegister_withLatched {r : HostReg} (hr : r ≠ .status) (s : State) (L : Option Latched) :
    readRegister { s with latched := L } r = readRegister s r := by
  cases r with
  | status => exact absurd rfl hr
  | id | bufSize | cmd | srcAddr | srcLen | dstAddr | dstLen | intStatus | intEnable | markerLen | stretchRounds =>
    rfl

theorem readAt_withLatched {o : Nat} (ho : o ≠ 0x008) (s : State) (L : Option Latched) :
    readAt { s with latched := L } o = readAt s o := by
  unfold readAt
  cases hr : registerAt o with
  | none => rfl
  | some r =>
    have hne : r ≠ .status := fun h => ho ((registerAt_eq_some.mp hr).trans (h ▸ rfl))
    exact readRegister_withLatched hne s L

theorem readAt_status (s : State) : readAt s 0x008 = s.statusWord := rfl

/-- The little-endian value of the bytes `f 0`, …, `f (w - 1)` as the sum of R45. -/
theorem leValue_map_range (w : Nat) : ∀ f : Nat → Byte,
    leValue ((List.range w).map f) = ∑ i ∈ Finset.range w, (f i).toNat * 2 ^ (8 * i) := by
  induction w with
  | zero => intro f; rfl
  | succ w ih =>
    intro f
    have hshift : ∀ i, (f (i + 1)).toNat * 2 ^ (8 * (i + 1)) = 256 * ((f (i + 1)).toNat * 2 ^ (8 * i)) := by
      intro i
      ring
    calc leValue ((List.range (w + 1)).map f)
        = (f 0).toNat + 256 * leValue ((List.range w).map fun i => f (i + 1)) := by
          rw [List.range_succ_eq_map, List.map_cons, List.map_map]; rfl
      _ = (f 0).toNat + ∑ i ∈ Finset.range w, (f (i + 1)).toNat * 2 ^ (8 * (i + 1)) := by
          rw [ih, Finset.mul_sum, Finset.sum_congr rfl fun i _ => (hshift i).symm]
      _ = ∑ i ∈ Finset.range (w + 1), (f i).toNat * 2 ^ (8 * i) := by
          rw [Finset.sum_range_succ', Nat.add_comm]; simp

/-- Byte `i` of a written value is its bits 8i+7 to 8i (R45). -/
theorem leBytes_getElem? {w i : Nat} (v : Word32) (h : i < w) : (leBytes w v)[i]? = some (v.extractLsb' (8 * i) 8) := by
  simp [leBytes, h]

/-- What the buffer holds after a write of the `w` low bytes of a value (R46). -/
theorem Memory.read_writeBytes_leBytes (m : Memory) (b w : Nat) (v : Word32) (a : Nat) :
    (m.writeBytes b (leBytes w v)).read a =
      if b ≤ a ∧ a < b + w then some (v.extractLsb' (8 * (a - b)) 8) else m.read a := by
  rw [Memory.read_writeBytes, leBytes_length]
  split
  next hin => exact leBytes_getElem? v (by omega)
  next => rfl

end Sys2Proof.Machine

open Sys2Proof Sys2Proof.Machine

/-- Settles O12: a buffer access and a write to CMD or an operand register is `setIgn` (R47); every other register access
commutes with the latched command, but a read of STATUS, which is the status word. -/
theorem accessesWhileBusyAreIgnored : Obligations.AccessesWhileBusyAreIgnored := by
  intro s hb
  refine ⟨fun w o hl => ⟨hostRead_buffer_of_busy hl hb, hostWrite_buffer_of_busy hl hb⟩,
    fun o hle hal => ⟨?_, ?_, ?_, ?_⟩⟩
  · intro v ho
    rw [hostWrite_of_aligned hle hal, writeAt_of_busy ho hb]
    rfl
  · intro v ho
    rw [hostWrite_of_aligned hle hal, hostWrite_of_aligned hle hal]
    exact congrArg (·.respond .done) (writeAt_withLatched ho v { s with latched := none } s.latched)
  · intro ho
    rw [hostRead_of_aligned hle hal, hostRead_of_aligned hle hal, ← readAt_withLatched ho s none]
    rfl
  · intro ho
    rw [hostRead_of_aligned hle hal, ho, readAt_status]
    rfl

/-- Settles O13: an idle write is `memWrite` of the value's little-endian bytes, and an idle read is the sum of the bytes
`memRead` finds, each of them `bufByte`, which draws for a byte nothing has written (R48). -/
theorem idleBufferAccessesAreLittleEndian : Obligations.IdleBufferAccessesAreLittleEndian := by
  intro s w o hb hl
  constructor
  · intro v
    exact ⟨_, hostWrite_buffer_of_idle hl hb v, s.buf.read_writeBytes_leBytes (o.toNat - bufBase) w v⟩
  · rw [hostRead_buffer_of_idle hl hb, State.memRead, leValue_map_range]
    rfl
end

section
/-! PROOF. Which words are illegal, and what an illegal word does (30_encoding.md R57 to R59): the decoder's opcode map
inverts `opcode`, so it refuses exactly the unassigned opcodes; a write to CMD latches any word; and the Engine completes
an illegal one with ILLEGAL_CMD. -/

namespace Sys2Proof.Machine

/-- The decoder's opcode map finds each command at its one opcode (R58). -/
theorem decodeOpcode_eq_some {opc : BitVec 8} {i : Instr} : decodeOpcode opc = some i ↔ opc = opcode i := by
  constructor
  · intro h
    unfold decodeOpcode at h
    split at h <;> cases h <;> exact BitVec.eq_of_toNat_eq ‹_›
  · rintro rfl
    cases i <;> rfl

/-- The assigned opcodes are those of the eleven commands (R58). -/
theorem mem_assignedOpcodes {opc : BitVec 8} : opc ∈ assignedOpcodes ↔ ∃ i, opc = opcode i := by
  have hall : assignedOpcodes = [Instr.nop, .hash, .ecbEncrypt, .ecbDecrypt, .cbcEncrypt, .cbcDecrypt, .setPassword,
    .invalidate, .payloadEncrypt, .payloadDecrypt, .selftest].map opcode := rfl
  constructor
  · intro h
    obtain ⟨i, -, hi⟩ := List.mem_map.mp (hall ▸ h)
    exact ⟨i, hi.symm⟩
  · rintro ⟨i, rfl⟩
    cases i <;> decide

theorem decodeOpcode_eq_none {opc : BitVec 8} : decodeOpcode opc = none ↔ opc ∉ assignedOpcodes := by
  simp only [Option.eq_none_iff_forall_ne_some, ne_eq, decodeOpcode_eq_some, mem_assignedOpcodes, not_exists]

/-- A word whose RSV is not 0 is illegal, whatever its OPC (R59). -/
theorem decode_of_rsv_ne_zero {w : Word32} (hrsv : (commandFields w).rsv ≠ 0) :
    decode w = .error .reservedNonzero := if_pos hrsv

/-- Where RSV is 0, the opcode map alone says what the word is (R57, R58). -/
theorem decode_of_rsv_eq_zero {w : Word32} (hrsv : (commandFields w).rsv = 0) :
    decode w = (decodeOpcode (commandFields w).opc).elim (.error .unassignedOpcode) .ok := by
  rw [decode, if_neg (not_not_intro hrsv)]
  cases decodeOpcode (commandFields w).opc <;> rfl

/-- A word is illegal exactly where RSV is not 0 or OPC is not assigned (R59). -/
theorem decode_eq_error_iff (w : Word32) :
    (∃ e, decode w = .error e) ↔ (commandFields w).rsv ≠ 0 ∨ (commandFields w).opc ∉ assignedOpcodes := by
  by_cases hrsv : (commandFields w).rsv = 0
  · rw [decode_of_rsv_eq_zero hrsv, ← decodeOpcode_eq_none]
    cases decodeOpcode (commandFields w).opc <;> simp [hrsv]
  · exact iff_of_true ⟨_, decode_of_rsv_ne_zero hrsv⟩ (.inl hrsv)

/-- A write to CMD while idle issues the word, whatever it is (R25, R121). -/
theorem writeAt_cmd_of_idle {s : State} (hb : s.busy = false) (v : Word32) : writeAt v s 0x00C = s.issue v := by
  change (if s.busy then s.setIgn else s.issue v) = s.issue v
  simp [hb]

/-- The Engine's step on a latched illegal word completes it with ILLEGAL_CMD (R59, R122). -/
theorem engineStep_of_illegal {s : State} {L : Latched} {e : DecodeError} (hl : s.latched = some L)
    (hd : decode L.cmd = .error e) : engineStep s = .next s.illegalCommand := by
  simp [engineStep, hl, hd]

end Sys2Proof.Machine

open Sys2Proof Sys2Proof.Machine

/-- Settles O3: the decoder refuses a word by its RSV or by an opcode of no command, the write to CMD is `issue` for every
word, and the Engine's step on an illegal one is `illegalCommand`. -/
theorem illegalWordIsIssuedAndEndsWithIllegalCmd : Obligations.IllegalWordIsIssuedAndEndsWithIllegalCmd := by
  intro w
  refine ⟨decode_eq_error_iff w, fun e hd => ⟨?issued, ?completed⟩⟩
  case issued =>
    intro s hb
    rw [hostWrite_of_aligned (by decide) (by decide)]
    exact congrArg (·.respond .done) (writeAt_cmd_of_idle hb w)
  case completed =>
    rintro s L hl rfl
    exact engineStep_of_illegal hl hd
end

section
/-! PROOF. The parts of SHA-512 (40_hash_engine.md R65 to R73): the padding, the pieces a byte sequence is cut into, the
message schedule word by word, the rounds of one block, and the running state from block to block. -/

namespace Sys2Proof.Machine

theorem pad_length (x : List Byte) : (pad x).length = x.length + 1 + padZeros x.length + 16 := by
  simp only [pad, List.length_append, List.length_cons, List.length_nil, zeros_length, toBE128_length, Nat.zero_add]

/-- The model's count of zero bytes is that of R68, written without a negative number. -/
theorem padZeros_eq (n : Nat) : padZeros n = (111 + 128 * n - n) % 128 := by
  unfold padZeros
  omega

/-- R68: `padZeros` is a solution, and being below 128 it is the least one. -/
theorem padded_length_mod_iff {n z : Nat} (hz : z ≤ padZeros n) : (n + 1 + z + 16) % 128 = 0 ↔ z = padZeros n := by
  unfold padZeros at *
  omega

/-- The bytes of the `i`-th piece of `k` bytes of a byte sequence. -/
def pieceAt (k : Nat) (bs : List Byte) (i : Nat) : List Byte := (bs.drop (k * i)).take k

theorem pieces_eq_map_pieceAt (k n : Nat) (bs : List Byte) : pieces k n bs = (List.range n).map (pieceAt k bs) := by
  induction n generalizing bs with
  | zero => rfl
  | succ n ih =>
    have hshift : pieceAt k (bs.drop k) = pieceAt k bs ∘ Nat.succ := by
      funext i
      simp [pieceAt, Nat.mul_succ, Nat.add_comm]
    rw [pieces, ih, hshift, List.range_succ_eq_map, List.map_cons, List.map_map]
    rfl

/-- The schedule grows at its end: the word added last is computed from all the others (R71). -/
theorem scheduleExtend_succ (n : Nat) (w : List Word64) :
    scheduleExtend (n + 1) w = scheduleExtend n w ++ [scheduleNext (scheduleExtend n w)] := by
  induction n generalizing w with
  | zero => rfl
  | succ n ih => exact ih (w ++ [scheduleNext w])

@[simp] theorem scheduleExtend_length (n : Nat) (w : List Word64) : (scheduleExtend n w).length = w.length + n := by
  induction n with
  | zero => rfl
  | succ n ih => simp [scheduleExtend_succ, ih, Nat.add_assoc]

/-- Extending a schedule keeps the words it has. -/
theorem prefix_scheduleExtend (n : Nat) (w : List Word64) : w <+: scheduleExtend n w := by
  induction n with
  | zero => exact List.prefix_rfl
  | succ n ih =>
    rw [scheduleExtend_succ]
    exact ih.trans (List.prefix_append _ _)

/-- Every added word is the next one after the words before it. -/
theorem scheduleExtend_getD {n t : Nat} {w : List Word64} (hlo : w.length ≤ t) (hhi : t < w.length + n) :
    (scheduleExtend n w).getD t 0 = scheduleNext ((scheduleExtend n w).take t) := by
  induction n with
  | zero => omega
  | succ n ih =>
    rw [scheduleExtend_succ]
    rcases Nat.lt_succ_iff_lt_or_eq.1 hhi with hold | hnew
    · have hlt : t < (scheduleExtend n w).length := by simpa using hold
      rw [List.getD_append _ _ _ _ hlt, List.take_append_of_le_length hlt.le]
      exact ih hold
    · have hlen : t = (scheduleExtend n w).length := by simpa using hnew
      simp [hlen]

/-- The words before word `t` give R71's sum of four of them. -/
theorem scheduleNext_take {w : List Word64} {t : Nat} (hpos : 0 < t) (hle : t ≤ w.length) :
    scheduleNext (w.take t) = smallSigma1 (w.getD (t - 2) 0) + w.getD (t - 7) 0 +
      smallSigma0 (w.getD (t - 15) 0) + w.getD (t - 16) 0 := by
  have hget : ∀ j, 0 < j → (w.take t).getD (t - j) 0 = w.getD (t - j) 0 := by
    intro j hj
    rw [List.getD_eq_getElem?_getD, List.getD_eq_getElem?_getD, List.getElem?_take_of_lt (by omega)]
  simp only [scheduleNext, List.length_take_of_le hle, hget _ (by decide : 0 < 2), hget _ (by decide : 0 < 7),
    hget _ (by decide : 0 < 15), hget _ (by decide : 0 < 16)]

@[simp] theorem messageSchedule_length (block : List Byte) : (messageSchedule block).length = 80 := by
  simp [messageSchedule]

/-- The first sixteen words are those of the block, most significant byte first (R70). -/
theorem messageSchedule_getElem?_of_lt {t : Nat} (ht : t < 16) (block : List Byte) :
    (messageSchedule block)[t]? = some (be64 (pieceAt 8 block t)) := by
  have hword : ((pieces 8 16 block).map be64)[t]? = some (be64 (pieceAt 8 block t)) := by
    simp [pieces_eq_map_pieceAt, ht]
  obtain ⟨added, hadded⟩ := prefix_scheduleExtend 64 ((pieces 8 16 block).map be64)
  rw [messageSchedule, ← hadded, List.getElem?_append_left (by simpa using ht), hword]

/-- Every later word follows from the words before it (R71). -/
theorem messageSchedule_getD_of_ge {t : Nat} (hlo : 16 ≤ t) (hhi : t < 80) (block : List Byte) :
    (messageSchedule block).getD t 0 = scheduleNext ((messageSchedule block).take t) :=
  scheduleExtend_getD (by simpa using hlo) (by simpa using hhi)

/-- The working registers before round `t` on a block, from the running state `hs` (R72). -/
def workingRegs (hs : HashRegs) (block : List Byte) (t : Nat) : HashRegs :=
  (List.range t).foldl (fun v j => hashRound v (roundConstants.getD j 0) ((messageSchedule block).getD j 0)) hs

@[simp] theorem workingRegs_zero (hs : HashRegs) (block : List Byte) : workingRegs hs block 0 = hs := rfl

theorem workingRegs_succ (hs : HashRegs) (block : List Byte) (t : Nat) :
    workingRegs hs block (t + 1) =
      hashRound (workingRegs hs block t) (roundConstants.getD t 0) ((messageSchedule block).getD t 0) := by
  simp only [workingRegs, List.range_succ, List.foldl_append, List.foldl_cons, List.foldl_nil]

/-- A list of 64-bit words read back by its indices. -/
theorem map_getD_range {n : Nat} {w : List Word64} (h : w.length = n) : (List.range n).map (w.getD · 0) = w := by
  subst h
  apply List.ext_getElem
  · simp
  · intro i h1 h2
    rw [List.getElem_map, List.getElem_range, List.getD_eq_getElem _ _ h2]

/-- Eighty constants meet eighty schedule words, so no round is lost in the model's `zip`. -/
theorem hashRounds_eq_workingRegs (hs : HashRegs) (block : List Byte) :
    hashRounds hs block = workingRegs hs block 80 := by
  have hconstants : (List.range 80).map (roundConstants.getD · 0) = roundConstants := map_getD_range rfl
  have hwords : (List.range 80).map ((messageSchedule block).getD · 0) = messageSchedule block :=
    map_getD_range (messageSchedule_length block)
  rw [hashRounds, ← hconstants, ← hwords, List.zip_map', List.foldl_map, workingRegs]

/-- The running state before block `i` of the padded message `p` (R72). -/
def runningState (p : List Byte) (i : Nat) : HashRegs :=
  (List.range i).foldl (fun hs j => compress hs (pieceAt 128 p j)) initialHash

@[simp] theorem runningState_zero (p : List Byte) : runningState p 0 = initialHash := rfl

theorem runningState_succ (p : List Byte) (i : Nat) :
    runningState p (i + 1) = compress (runningState p i) (pieceAt 128 p i) := by
  simp only [runningState, List.range_succ, List.foldl_append, List.foldl_cons, List.foldl_nil]

theorem hashOf_toList (x : List Byte) :
    (hashOf x).toList = (runningState (pad x) ((pad x).length / 128)).bytes := by
  rw [runningState, ← List.foldl_map, ← pieces_eq_map_pieceAt]
  rfl

/-- The digest's byte order (R73): eight bytes of each word, most significant first. -/
theorem HashRegs.bytes_eq_flatMap (r : HashRegs) :
    r.bytes = [r.a, r.b, r.c, r.d, r.e, r.f, r.g, r.h].flatMap
      (fun w => (List.range 8).map fun b => w.extractLsb' (8 * (7 - b)) 8) := rfl

end Sys2Proof.Machine

open Sys2Proof Sys2Proof.Machine

/-- Settles O48: the sixteen words of the block are a prefix that the extension keeps, and each word it adds is
`scheduleNext` of the words before it. -/
theorem messageScheduleFollowsItsRecurrence : Obligations.MessageScheduleFollowsItsRecurrence := by
  intro block _
  refine ⟨messageSchedule_length block, fun t ht => messageSchedule_getElem?_of_lt ht block, fun t hlo hhi => ?_⟩
  rw [messageSchedule_getD_of_ge hlo hhi, scheduleNext_take (by omega) (by simpa using hhi.le)]

/-- Settles O51: up to `padZeros` only `padZeros` itself gives a whole number of blocks, so it is the least. -/
theorem paddingFillsWholeBlocks : Obligations.PaddingFillsWholeBlocks := by
  intro x
  have hwhole : (x.length + 1 + padZeros x.length + 16) % 128 = 0 := (padded_length_mod_iff le_rfl).2 rfl
  refine ⟨padZeros x.length, rfl, hwhole, fun z' hz' hmod => ?least, ?length, padZeros_eq _⟩
  case least => exact hz'.ne ((padded_length_mod_iff hz'.le).1 hmod)
  case length => rw [pad_length, hwhole]

/-- Settles O57: the running states and the working registers of the model's two folds are the sequences asked for, one
`hashRound` and one `compress` at a time. -/
theorem hashCarriesItsStateFromBlockToBlock : Obligations.HashCarriesItsStateFromBlockToBlock := by
  refine ⟨fun _ _ _ => ⟨rfl, rfl, rfl, rfl, rfl, rfl⟩, fun x => ?_⟩
  refine ⟨runningState (pad x), fun i => workingRegs (runningState (pad x) i) (pieceAt 128 (pad x) i),
    rfl, fun i _ => ⟨workingRegs_zero _ _, ?round, ?carry⟩, ?digest⟩
  case round =>
    rintro t _ _ _ rfl rfl
    exact workingRegs_succ _ _ t
  case carry => rw [runningState_succ, compress, hashRounds_eq_workingRegs]
  case digest =>
    rintro _ rfl
    rw [hashOf_toList, HashRegs.bytes_eq_flatMap]
end

