-- ==== Sys2Proof/Proofs/BlockCipherBijection.lean ====
section
/-! PROOF. The block cipher and its inverse (41_block_cipher.md R86 to R88): each part of encryption, the two whitenings
and one round, is undone by the part of decryption that answers it, whatever the subkeys and the S-box words are. -/

namespace Sys2Proof.Machine

/-- Rotating right undoes rotating left, at every width. -/
@[simp] theorem rotateRight_rotateLeft {w : Nat} (x : BitVec w) (n : Nat) : (x.rotateLeft n).rotateRight n = x := by
  ext i hi
  have hn : n % w < w := Nat.mod_lt n (by omega)
  rw [BitVec.getElem_rotateRight]
  split
  case isTrue hlow =>
    rw [BitVec.getElem_rotateLeft, dif_neg (by omega)]
    exact getElem_congr_idx (by omega)
  case isFalse hhigh =>
    rw [BitVec.getElem_rotateLeft, dif_pos (by omega)]
    exact getElem_congr_idx (by omega)

/-- Rotating left undoes rotating right, at every width. -/
@[simp] theorem rotateLeft_rotateRight {w : Nat} (x : BitVec w) (n : Nat) : (x.rotateRight n).rotateLeft n = x := by
  ext i hi
  have hn : n % w < w := Nat.mod_lt n (by omega)
  rw [BitVec.getElem_rotateLeft]
  split
  case isTrue hlow =>
    rw [BitVec.getElem_rotateRight, dif_neg (by omega)]
    exact getElem_congr_idx (by omega)
  case isFalse hhigh =>
    rw [BitVec.getElem_rotateRight, dif_pos (by omega)]
    exact getElem_congr_idx (by omega)

variable (ks : KeySchedule) (v : Quad)

@[simp] theorem whitenIn_whitenIn : whitenIn ks (whitenIn ks v) = v := by
  simp only [whitenIn, xor_cancel_right]

@[simp] theorem unwhitenOut_whitenOut : unwhitenOut ks (whitenOut ks v) = v := by
  simp only [unwhitenOut, whitenOut, xor_cancel_right]

@[simp] theorem whitenOut_unwhitenOut : whitenOut ks (unwhitenOut ks v) = v := by
  simp only [unwhitenOut, whitenOut, xor_cancel_right]

/-- The words a round of encryption moves unchanged are the ones decryption gives to `roundF`, so both compute the same
`F0` and `F1` (R87). -/
theorem decRound_encRound (r : Fin 16) : decRound ks (encRound ks v r) r = v := by
  simp only [decRound, encRound, rotateLeft_rotateRight, xor_cancel_right, rotateRight_rotateLeft]

theorem encRound_decRound (r : Fin 16) : encRound ks (decRound ks v r) r = v := by
  simp only [decRound, encRound, xor_cancel_right, rotateRight_rotateLeft, rotateLeft_rotateRight]

/-- A list of steps, each undone by a step of its own, is undone by those from the last to the first. -/
theorem foldl_reverse_foldl {σ α : Type} {f g : σ → α → σ} (hundo : ∀ x a, g (f x a) a = x)
    (l : List α) (x : σ) : l.reverse.foldl g (l.foldl f x) = x := by
  induction l generalizing x with
  | nil => rfl
  | cons a l ih =>
    rw [List.foldl_cons, List.reverse_cons, List.foldl_append, ih, List.foldl_cons, hundo, List.foldl_nil]

/-- Decryption takes the rounds in the reverse order (R87). -/
theorem decRounds_encRounds (rs : List (Fin 16)) : rs.reverse.foldl (decRound ks) (rs.foldl (encRound ks) v) = v :=
  foldl_reverse_foldl (decRound_encRound ks) rs v

theorem encRounds_decRounds (rs : List (Fin 16)) : rs.foldl (encRound ks) (rs.reverse.foldl (decRound ks) v) = v := by
  simpa only [List.reverse_reverse] using foldl_reverse_foldl (encRound_decRound ks) rs.reverse v

/-- R88's first half, under any schedule: the output whitening is undone first, then the rounds, then the input
whitening. -/
@[simp] theorem tfDecrypt_tfEncrypt (b : Block) : tfDecrypt ks (tfEncrypt ks b) = b := by
  rw [tfDecrypt, tfEncrypt, blockWords_wordsBlock, unwhitenOut_whitenOut, decRounds_encRounds, whitenIn_whitenIn,
    wordsBlock_blockWords]

/-- R88's second half, under any schedule. -/
@[simp] theorem tfEncrypt_tfDecrypt (c : Block) : tfEncrypt ks (tfDecrypt ks c) = c := by
  rw [tfEncrypt, tfDecrypt, blockWords_wordsBlock, whitenIn_whitenIn, encRounds_decRounds, whitenOut_unwhitenOut,
    wordsBlock_blockWords]

end Sys2Proof.Machine

open Sys2Proof Sys2Proof.Machine

/-- Settles O46: the two laws hold under any schedule, so under the one of every key. -/
theorem blockCipherIsABijection : Obligations.BlockCipherIsABijection := fun k b =>
  ⟨tfDecrypt_tfEncrypt (keySchedule k) b, tfEncrypt_tfDecrypt (keySchedule k) b⟩
end

