-- ==== Sys2Proof/Proofs/ChainedModeLaws.lean ====
section
/-! PROOF. The chained mode (42_chained_mode.md R93 to R96). A whole number of blocks is the `blockBytes` of one list of
blocks, and on that list the two modes are `cbcEncBlocks` and `cbcDecBlocks`: the statements about bytes are those about
the two chains. -/

namespace Sys2Proof.Machine

@[simp] theorem blockBytes_cons (b : Block) (bs : List Block) : blockBytes (b :: bs) = b.toList ++ blockBytes bs := by
  simp [blockBytes]

theorem blockBytes_take (n : Nat) (bs : List Block) : (blockBytes bs).take (16 * n) = blockBytes (bs.take n) := by
  induction bs generalizing n with
  | nil => simp [blockBytes]
  | cons b bs ih =>
    cases n with
    | zero => simp [blockBytes]
    | succ n =>
      have hrest : 16 * (n + 1) - 16 = 16 * n := by omega
      simp [List.take_append, hrest, ih, List.take_of_length_le]

theorem pieceAt_blockBytes {i : Nat} (bs : List Block) (hi : i < bs.length) :
    pieceAt 16 (blockBytes bs) i = bs[i].toList := by
  induction bs generalizing i with
  | nil => simp at hi
  | cons b bs ih =>
    cases i with
    | zero => simp [pieceAt]
    | succ i =>
      have hrest : 16 * (i + 1) - 16 = 16 * i := by omega
      simpa [pieceAt, List.drop_append, hrest, List.drop_of_length_le] using ih (by simpa using hi)

/-- The bytes of blocks, cut into blocks, are those blocks. -/
theorem blocksOf_blockBytes (bs : List Block) : blocksOf bs.length (blockBytes bs) = bs := by
  induction bs with
  | nil => rfl
  | cons b bs ih =>
    simpa [blocksOf, pieces, bytesToVector_of_toList] using ih

/-- A whole number of blocks, cut into blocks, loses no byte. -/
theorem blockBytes_blocksOf {n : Nat} {y : List Byte} (h : y.length = 16 * n) : blockBytes (blocksOf n y) = y := by
  have hpiece : ∀ p ∈ pieces 16 n y, (bytesToVector 16 p).toList = p :=
    fun p hp => bytesToVector_toList (length_of_mem_pieces 16 n y h p hp)
  calc blockBytes (blocksOf n y) = ((pieces 16 n y).map fun p => (bytesToVector 16 p).toList).flatten := by
        simp [blockBytes, blocksOf, List.flatMap_def, Function.comp_def]
    _ = (pieces 16 n y).flatten := by rw [List.map_congr_left hpiece, List.map_id']
    _ = y := pieces_flatten 16 n y h

theorem exists_eq_blockBytes {y : List Byte} (h : y.length % 16 = 0) : ∃ bs, y = blockBytes bs :=
  ⟨blocksOf (y.length / 16) y, (blockBytes_blocksOf (by omega)).symm⟩

theorem blockBytes_injective : Function.Injective blockBytes := by
  intro as bs h
  have hlen : as.length = bs.length := by simpa using congrArg List.length h
  rw [← blocksOf_blockBytes as, ← blocksOf_blockBytes bs, h, hlen]

theorem zeroExt_length_mod (x : List Byte) : (zeroExt x).length % 16 = 0 := by
  rw [zeroExt_length, ceil16_mod]

/-- A whole number of blocks gets no padding (R93). -/
theorem zeroExt_of_mod {y : List Byte} (h : y.length % 16 = 0) : zeroExt y = y := by
  simp [zeroExt, ceil16_of_mod h, zeros]

@[simp] theorem zeroExt_blockBytes (bs : List Block) : zeroExt (blockBytes bs) = blockBytes bs :=
  zeroExt_of_mod (by simp)

/-- `CbcEnc` chains the blocks of the zero-extended input (R94). -/
theorem cbcEnc_of_zeroExt {x : List Byte} {ps : List Block} (h : zeroExt x = blockBytes ps) (ks : KeySchedule) :
    cbcEnc ks x = blockBytes (cbcEncBlocks ks zeroIv ps) := by
  have hlen : ceil16 x.length / 16 = ps.length := by
    rw [← zeroExt_length, h, blockBytes_length, Nat.mul_div_cancel_left _ (by decide)]
  rw [cbcEnc, hlen, h, blocksOf_blockBytes]

/-- `CbcDec` unchains the blocks of its input (R95). -/
theorem cbcDec_blockBytes (ks : KeySchedule) (cs : List Block) :
    cbcDec ks (blockBytes cs) = blockBytes (cbcDecBlocks ks zeroIv cs) := by
  rw [cbcDec, blockBytes_length, Nat.mul_div_cancel_left _ (by decide), blocksOf_blockBytes]

@[simp] theorem xorBlock_xorBlock (a b : Block) : xorBlock (xorBlock a b) b = a := by
  ext i hi : 1
  simp [xorBlock]

section Chains
variable (ks : KeySchedule) (prev : Block)

/-- Block `i` of the chain of R94: the ciphertext block before block `i` is block `i` of the chain with `prev` put in front
of it. -/
theorem cbcEncBlocks_getElem {i : Nat} (ps : List Block) (hi : i < ps.length) :
    (cbcEncBlocks ks prev ps)[i]'(by simpa using hi) =
      tfEncrypt ks (xorBlock ps[i] ((prev :: cbcEncBlocks ks prev ps)[i]'(by simp; omega))) := by
  induction ps generalizing prev i with
  | nil => simp at hi
  | cons p ps ih =>
    cases i with
    | zero => rfl
    | succ i => exact ih _ (by simpa using hi)

/-- Block `i` of the chain of R95, with the block before it found in the input. -/
theorem cbcDecBlocks_getElem {i : Nat} (cs : List Block) (hi : i < cs.length) :
    (cbcDecBlocks ks prev cs)[i]'(by simpa using hi) =
      xorBlock (tfDecrypt ks cs[i]) ((prev :: cs)[i]'(by simp; omega)) := by
  induction cs generalizing prev i with
  | nil => simp at hi
  | cons c cs ih =>
    cases i with
    | zero => rfl
    | succ i => exact ih _ (by simpa using hi)

/-- A chain's first blocks depend on the first blocks only (R96). -/
theorem cbcEncBlocks_take (n : Nat) (ps : List Block) :
    (cbcEncBlocks ks prev ps).take n = cbcEncBlocks ks prev (ps.take n) := by
  induction ps generalizing prev n with
  | nil => simp [cbcEncBlocks]
  | cons p ps ih =>
    cases n with
    | zero => rfl
    | succ n => simp [cbcEncBlocks, ih]

/-- Both chains go on from the same ciphertext block, and the block cipher's two directions undo each other (R88). -/
@[simp] theorem cbcDecBlocks_cbcEncBlocks (ps : List Block) :
    cbcDecBlocks ks prev (cbcEncBlocks ks prev ps) = ps := by
  induction ps generalizing prev with
  | nil => rfl
  | cons p ps ih => simp [cbcEncBlocks, cbcDecBlocks, ih]

@[simp] theorem cbcEncBlocks_cbcDecBlocks (cs : List Block) :
    cbcEncBlocks ks prev (cbcDecBlocks ks prev cs) = cs := by
  induction cs generalizing prev with
  | nil => rfl
  | cons c cs ih => simp [cbcEncBlocks, cbcDecBlocks, ih]

end Chains

/-- The block before block `i` of some bytes, the zero IV for the first (R94, R95). -/
theorem previousBlock_blockBytes {i : Nat} (cs : List Block) (hi : i < cs.length) :
    (if i = 0 then Vector.replicate 16 0 else bytesToVector 16 (pieceAt 16 (blockBytes cs) (i - 1))) =
      (zeroIv :: cs)[i]'(by simp; omega) := by
  cases i with
  | zero => rfl
  | succ i => simp [pieceAt_blockBytes cs (show i < cs.length by omega), bytesToVector_of_toList]

theorem cbcEnc_pieceAt {x : List Byte} {i : Nat} (hi : 16 * i < ceil16 x.length) (ks : KeySchedule) :
    pieceAt 16 (cbcEnc ks x) i =
      (tfEncrypt ks (xorBlock (bytesToVector 16 (pieceAt 16 (zeroExt x) i))
        (if i = 0 then Vector.replicate 16 0 else bytesToVector 16 (pieceAt 16 (cbcEnc ks x) (i - 1))))).toList := by
  obtain ⟨ps, hps⟩ := exists_eq_blockBytes (zeroExt_length_mod x)
  have hlen : i < ps.length := by rw [← zeroExt_length, hps, blockBytes_length] at hi; omega
  have hlen' : i < (cbcEncBlocks ks zeroIv ps).length := by simpa using hlen
  rw [cbcEnc_of_zeroExt hps, hps, previousBlock_blockBytes _ hlen', pieceAt_blockBytes _ hlen', pieceAt_blockBytes _ hlen,
    bytesToVector_of_toList, cbcEncBlocks_getElem ks zeroIv ps hlen]

theorem cbcDec_pieceAt {y : List Byte} (hy : y.length % 16 = 0) {i : Nat} (hi : 16 * i < y.length) (ks : KeySchedule) :
    pieceAt 16 (cbcDec ks y) i =
      (xorBlock (tfDecrypt ks (bytesToVector 16 (pieceAt 16 y i)))
        (if i = 0 then Vector.replicate 16 0 else bytesToVector 16 (pieceAt 16 y (i - 1)))).toList := by
  obtain ⟨cs, rfl⟩ := exists_eq_blockBytes hy
  have hlen : i < cs.length := by rw [blockBytes_length] at hi; omega
  rw [cbcDec_blockBytes, previousBlock_blockBytes _ hlen, pieceAt_blockBytes _ hlen,
    pieceAt_blockBytes _ (by simpa using hlen), bytesToVector_of_toList, cbcDecBlocks_getElem ks zeroIv cs hlen]

/-- Law 2 of R96, under any schedule. -/
theorem cbcDec_cbcEnc (ks : KeySchedule) (x : List Byte) : cbcDec ks (cbcEnc ks x) = zeroExt x := by
  obtain ⟨ps, hps⟩ := exists_eq_blockBytes (zeroExt_length_mod x)
  rw [cbcEnc_of_zeroExt hps, cbcDec_blockBytes, cbcDecBlocks_cbcEncBlocks, hps]

/-- Law 3 of R96, under any schedule. -/
theorem cbcEnc_cbcDec (ks : KeySchedule) {y : List Byte} (hy : y.length % 16 = 0) : cbcEnc ks (cbcDec ks y) = y := by
  obtain ⟨cs, rfl⟩ := exists_eq_blockBytes hy
  rw [cbcDec_blockBytes, cbcEnc_of_zeroExt (zeroExt_blockBytes _), cbcEncBlocks_cbcDecBlocks]

/-- Law 4 of R96, under any schedule. -/
theorem cbcEnc_take_congr (ks : KeySchedule) {x x' : List Byte} {n : Nat}
    (h : (zeroExt x).take (16 * n) = (zeroExt x').take (16 * n)) :
    (cbcEnc ks x).take (16 * n) = (cbcEnc ks x').take (16 * n) := by
  obtain ⟨ps, hps⟩ := exists_eq_blockBytes (zeroExt_length_mod x)
  obtain ⟨ps', hps'⟩ := exists_eq_blockBytes (zeroExt_length_mod x')
  have hblocks : ps.take n = ps'.take n := by
    rw [hps, hps', blockBytes_take, blockBytes_take] at h
    exact blockBytes_injective h
  rw [cbcEnc_of_zeroExt hps, cbcEnc_of_zeroExt hps', blockBytes_take, blockBytes_take, cbcEncBlocks_take, cbcEncBlocks_take,
    hblocks]

end Sys2Proof.Machine

open Sys2Proof Sys2Proof.Machine

/-- Settles O49: the pieces of 16 bytes are the blocks of the two chains. -/
theorem chainedModeChainsEachBlock : Obligations.ChainedModeChainsEachBlock := fun ks x =>
  ⟨⟨cbcEnc_length ks x, fun _ hi => cbcEnc_pieceAt hi ks⟩,
    fun hx => ⟨by rw [cbcDec_length]; omega, fun _ hi => cbcDec_pieceAt hx hi ks⟩⟩

/-- Settles O50: the four laws hold under any schedule, so under the one of every key. -/
theorem chainedModeLaws : Obligations.ChainedModeLaws := fun k =>
  ⟨cbcEnc_length (keySchedule k), cbcDec_cbcEnc (keySchedule k), fun _ hy => cbcEnc_cbcDec (keySchedule k) hy,
    fun _ _ _ h => cbcEnc_take_congr (keySchedule k) h⟩
end

section
/-! PROOF. The key enclave's functions (43_key_enclave.md R100, R102): the stretching is iteration, the fold adds the two
halves byte by byte, and the obfuscation rotates every byte by an amount that retrieval rotates back. -/

namespace Sys2Proof.Machine

/-- The stretching hashes the digest once more for each round (R100). -/
theorem stretch_eq_iterate (n : Nat) (d : Digest) : stretch n d = (fun e : Digest => hashOf e.toList)^[n] d := by
  induction n generalizing d with
  | zero => rfl
  | succ n ih => rw [stretch, ih, Function.iterate_succ_apply]

theorem foldDigest_getElem (d : Digest) {j : Nat} (hj : j < 32) : (foldDigest d)[j] = d[j] + d[j + 32] := by
  rw [foldDigest, Vector.getElem_ofFn]

theorem obfuscate_getElem (k : Key) {j : Nat} (hj : j < 32) : (obfuscate k)[j] = (k[j]).rotateLeft (rotAmount j) := by
  rw [obfuscate, Vector.getElem_ofFn]

theorem deobfuscate_getElem (v : Key) {j : Nat} (hj : j < 32) :
    (deobfuscate v)[j] = (v[j]).rotateRight (rotAmount j) := by
  rw [deobfuscate, Vector.getElem_ofFn]

/-- Retrieval undoes the obfuscation (R102). -/
@[simp] theorem deobfuscate_obfuscate (k : Key) : deobfuscate (obfuscate k) = k := by
  ext j hj : 1
  rw [deobfuscate_getElem _ hj, obfuscate_getElem _ hj, rotateRight_rotateLeft]

end Sys2Proof.Machine

open Sys2Proof Sys2Proof.Machine

/-- Settles O45: the two functions byte by byte, and the law that joins them. -/
theorem obfuscationIsReversible : Obligations.ObfuscationIsReversible := fun k =>
  ⟨fun j => ⟨obfuscate_getElem k j.isLt, deobfuscate_getElem k j.isLt⟩, deobfuscate_obfuscate k⟩

/-- Settles O56: the key is the fold of the stretched digest, and a sum of two bytes is taken modulo 256. -/
theorem keyDerivationStretchesAndFolds : Obligations.KeyDerivationStretchesAndFolds := by
  intro rounds pw j
  rw [← stretch_eq_iterate, deriveKey, foldDigest_getElem _ j.isLt, BitVec.toNat_add]
end

section
/-! PROOF. Who writes the vault (43_key_enclave.md R105 to R107, 10_state.md R35): a reset, a SET_PASSWORD that succeeds and
an INVALIDATE do, each of them both parts at once; no host access, no illegal word and no other command does. -/

namespace Sys2Proof.Machine

theorem step_of_host {s : State} {a : Access} {rest : List Event} (h : s.inputs = .host a :: rest) :
    step s = .next (hostAccess a s.popInput) := by
  simp only [step, h]

theorem step_of_reset {s : State} {rest : List Event} (h : s.inputs = .reset :: rest) :
    step s = .next s.popInput.takeReset := by
  simp only [step, h]

/-- The Engine moves where the input says so, and where there is none (R9). -/
theorem step_of_engine {s : State} (h : s.inputs = [] ∨ ∃ rest, s.inputs = .engine :: rest) :
    step s = engineStep s.popInput := by
  rcases h with hnil | ⟨rest, hengine⟩
  · rw [popInput_of_nil hnil]
    simp only [step, hnil]
  · simp only [step, hengine]

/-- The idle Engine has no step, and the block waits (R122, R141). -/
theorem engineStep_of_idle {s : State} (h : s.latched = none) : engineStep s = .next s := by
  simp only [engineStep, h]

/-- `f` is a part of the state that none of the operations the commands share touches: completion, the buffer, the
randomness source, and the self-test's result. -/
structure KeptByCommonOps {α : Type} (f : State → α) : Prop where
  complete (s : State) (code : ErrCode) (n : Nat) : f (s.complete code n) = f s
  noteRead (s : State) : f s.noteRead = f s
  memWrite (s : State) (a : Nat) (v : List Byte) : f (s.memWrite a v) = f s
  noteTrng (s : State) : f s.noteTrng = f s
  noteSelftest (s : State) (ok : Bool) : f (s.noteSelftest ok) = f s

namespace KeptByCommonOps

variable {α : Type} {f : State → α} (hf : KeptByCommonOps f)
include hf

theorem raise (s : State) (code : ErrCode) : f (s.raise code) = f s := hf.complete s code 0

theorem succeed (s : State) (n : Nat) : f (s.succeed n) = f s := hf.complete s .ok n

/-- Where the buffer was read and then written, and the command succeeded. -/
theorem output (s : State) (a : Nat) (v : List Byte) (n : Nat) : f ((s.noteRead.memWrite a v).succeed n) = f s := by
  rw [hf.succeed, hf.memWrite, hf.noteRead]

theorem openPayload (L : Latched) (p : List Byte) (s : State) : f (openPayload L p s) = f s := by
  rcases openPayload_cases L p s with h | ⟨_, _, h⟩
  · rw [h, hf.raise]
  · rw [h, hf.succeed, hf.memWrite]

theorem parsePayload (L : Latched) (p : List Byte) (s : State) : f (parsePayload L p s) = f s := by
  rcases parsePayload_cases L p s with ⟨_, _, h⟩ | ⟨_, _, _, h⟩ | ⟨_, _, _, _, h⟩
  · rw [h, hf.raise]
  · rw [h, hf.succeed]
  · rw [h, hf.openPayload]

theorem payloadEncryptRule (L : Latched) (s : State) : f (payloadEncryptRule L s) = f s := by
  rcases payloadEncryptRule_cases L s with
    ⟨_, _, h⟩ | ⟨_, _, _, _, _, h⟩ | ⟨_, _, _, _, _, _, h⟩ | ⟨_, _, _, _, _, _, _, h⟩
  · rw [h, hf.raise]
  · rw [h, hf.succeed, hf.memWrite]
  · rw [h, hf.raise, hf.noteTrng]
  · rw [h, hf.output, hf.noteTrng]

theorem payloadDecryptRule (L : Latched) (s : State) : f (payloadDecryptRule L s) = f s := by
  rcases payloadDecryptRule_cases L s with ⟨_, _, h⟩ | ⟨_, _, _, h⟩
  · rw [h, hf.raise]
  · rw [h, hf.parsePayload, hf.noteRead]

theorem selftestRule (L : Latched) (s : State) : f (selftestRule L s) = f s := by
  simp only [Machine.selftestRule]
  split
  · rw [hf.raise, hf.noteSelftest]
  · rw [hf.succeed, hf.noteSelftest]

/-- Every command but the two of the key enclave does nothing but the shared operations. -/
theorem ruleOf {i : Instr} (hset : i ≠ .setPassword) (hinv : i ≠ .invalidate) (L : Latched) (s : State) :
    f (ruleOf i L s) = f s := by
  cases i with
  | nop => exact hf.succeed s 0
  | hash =>
    rcases hashRule_cases L s with ⟨_, _, h⟩ | ⟨_, _, _, h⟩ <;> simp only [Machine.ruleOf, h, hf.raise, hf.output]
  | ecbEncrypt =>
    rcases ecbEncryptRule_cases L s with ⟨_, _, h⟩ | ⟨_, _, _, _, _, h⟩ <;>
      simp only [Machine.ruleOf, h, hf.raise, hf.output]
  | ecbDecrypt =>
    rcases ecbDecryptRule_cases L s with ⟨_, _, h⟩ | ⟨_, _, _, _, _, h⟩ <;>
      simp only [Machine.ruleOf, h, hf.raise, hf.output]
  | cbcEncrypt =>
    rcases cbcEncryptRule_cases L s with ⟨_, _, h⟩ | ⟨_, _, _, _, h⟩ <;>
      simp only [Machine.ruleOf, h, hf.raise, hf.output]
  | cbcDecrypt =>
    rcases cbcDecryptRule_cases L s with ⟨_, _, h⟩ | ⟨_, _, _, _, _, h⟩ <;>
      simp only [Machine.ruleOf, h, hf.raise, hf.output]
  | setPassword => exact absurd rfl hset
  | invalidate => exact absurd rfl hinv
  | payloadEncrypt => exact hf.payloadEncryptRule L s
  | payloadDecrypt => exact hf.payloadDecryptRule L s
  | selftest => exact hf.selftestRule L s

end KeptByCommonOps

/-- Both parts of the vault's state (R34): its `valid` bit and its contents. -/
def State.vaultState (s : State) : Bool × Key := (s.keyValid, s.vault)

theorem vaultState_eq_iff {s t : State} :
    t.vaultState = s.vaultState ↔ t.keyValid = s.keyValid ∧ t.vault = s.vault := Prod.mk_inj

theorem vaultState_kept : KeptByCommonOps State.vaultState where
  complete _ _ _ := rfl
  noteRead _ := rfl
  memWrite _ _ _ := rfl
  noteTrng _ := rfl
  noteSelftest _ _ := rfl

theorem writeAt_vaultState (v : Word32) (s : State) (o : Nat) : (writeAt v s o).vaultState = s.vaultState := by
  rcases writeAt_cases v s o with h | ⟨_, h⟩ | ⟨_, h⟩ | ⟨_, h⟩ | ⟨_, h⟩ | ⟨_, h⟩ | h | h <;> rw [h] <;> rfl

/-- No host access changes the vault. -/
theorem hostAccess_vaultState (a : Access) (s : State) : (hostAccess a s).vaultState = s.vaultState := by
  cases a with
  | read w o =>
    rcases hostRead_cases w o s with ⟨_, h⟩ | ⟨_, _, _, h⟩ | ⟨_, _, _, h⟩ | ⟨_, _, h⟩ <;> rw [hostAccess, h] <;> rfl
  | write w o v =>
    rcases hostWrite_cases w o v s with ⟨_, h⟩ | ⟨_, _, _, h⟩ | ⟨_, _, _, h⟩ | ⟨_, _, h⟩
    · rw [hostAccess, h]
      exact writeAt_vaultState v s o.toNat
    all_goals rw [hostAccess, h]; rfl

/-- What a SET_PASSWORD does to the vault (R106): nothing where it ends with an error, and else it stores the derived key. -/
theorem setPasswordRule_vaultState (L : Latched) (s : State) :
    ((setPasswordRule L s).err ≠ .ok ∧ (setPasswordRule L s).vaultState = s.vaultState) ∨
    ((setPasswordRule L s).err = .ok ∧ (setPasswordRule L s).vaultState =
      (true, obfuscate (deriveKey s.cfg.stretchRounds.toNat (s.input L)))) := by
  rcases setPasswordRule_cases L s with ⟨_, hc, h⟩ | ⟨_, _, h⟩
  · exact .inl (h ▸ ⟨hc, rfl⟩)
  · exact .inr (h ▸ ⟨rfl, rfl⟩)

/-- What the completion of a command does to the vault (R105): a SET_PASSWORD that ends with OK stores the derived key, an
INVALIDATE zeroes the vault, and every other completion keeps it. -/
theorem engineStep_vaultState {s t : State} {L : Latched} (hL : s.latched = some L) (h : engineStep s = .next t) :
    (decode L.cmd = .ok .setPassword ∧ t.err = .ok ∧
      t.vaultState = (true, obfuscate (deriveKey s.cfg.stretchRounds.toNat (s.input L)))) ∨
    (decode L.cmd = .ok .invalidate ∧ t.vaultState = (false, zeroVault)) ∨
    ((decode L.cmd = .ok .setPassword → t.err ≠ .ok) ∧ decode L.cmd ≠ .ok .invalidate ∧
      t.vaultState = s.vaultState) := by
  rcases engineStep_cases s with ⟨hnone, _⟩ | ⟨M, e, hM, hd, he⟩ | ⟨M, i, hM, hd, hr⟩
  · cases hnone.symm.trans hL
  · cases hM.symm.trans hL
    cases he.symm.trans h
    exact .inr (.inr ⟨by simp [hd], by simp [hd], rfl⟩)
  · cases hM.symm.trans hL
    cases hr.symm.trans h
    by_cases hset : i = .setPassword
    · subst hset
      rcases setPasswordRule_vaultState L s with ⟨herr, hv⟩ | ⟨hok, hv⟩
      · exact .inr (.inr ⟨fun _ => herr, by simp [hd], hv⟩)
      · exact .inl ⟨hd, hok, hv⟩
    by_cases hinv : i = .invalidate
    · subst hinv
      exact .inr (.inl ⟨hd, rfl⟩)
    · exact .inr (.inr ⟨by simp [hd, hset], by simp [hd, hinv], vaultState_kept.ruleOf hset hinv L s⟩)

end Sys2Proof.Machine

open Sys2Proof Sys2Proof.Machine

/-- Settles O36: INVALIDATE is its rule, which makes no check. -/
theorem invalidateZeroesTheVault : Obligations.InvalidateZeroesTheVault :=
  ⟨rfl, fun _ _ hL => exec_of_latched hL⟩

/-- Settles O43: the input says who moves (R9); a reset and a host access are read off, and where the Engine completes a
command, `engineStep_vaultState` finds its row of the table. -/
theorem vaultFollowsItsStateMachine : Obligations.VaultFollowsItsStateMachine := by
  intro s t h
  refine ⟨fun rest hin => ?reset, fun a rest hin => ?host, fun hin => ?engine⟩
  case reset =>
    cases (step_of_reset hin).symm.trans h
    exact ⟨rfl, rfl⟩
  case host =>
    cases (step_of_host hin).symm.trans h
    exact vaultState_eq_iff.mp (hostAccess_vaultState a s.popInput)
  case engine =>
    have he : engineStep s.popInput = .next t := (step_of_engine hin).symm.trans h
    refine ⟨fun hidle => ?idle, fun L hL => ?busy⟩
    case idle =>
      cases (engineStep_of_idle (s := s.popInput) hidle).symm.trans he
      exact ⟨rfl, rfl⟩
    case busy =>
      rcases engineStep_vaultState (s := s.popInput) hL he with ⟨hd, hok, hv⟩ | ⟨hd, hv⟩ | ⟨hset, hinv, hv⟩
      · obtain ⟨hvalid, hvault⟩ := Prod.mk_inj.mp hv
        exact ⟨fun _ _ => ⟨hvalid, hvault⟩, by simp [hd], fun _ hother => hother.elim (absurd hd) (absurd hok)⟩
      · obtain ⟨hvalid, hvault⟩ := Prod.mk_inj.mp hv
        exact ⟨by simp [hd], fun _ => ⟨hvalid, hvault⟩, fun hother => absurd hd hother⟩
      · exact ⟨fun hd herr => absurd herr (hset hd), fun hd => absurd hd hinv, fun _ _ => vaultState_eq_iff.mp hv⟩
end

section
/-! PROOF. The padding resolution (44_payload_framing.md R116): the search tries the candidate lengths longest first and stops
at the first one that has a byte other than zero after it, which loses no candidate, since every shorter one has that byte
after it too. -/

namespace Sys2Proof.Machine

/-- Every byte of `x` from `n` on is zero (R116). -/
def ZeroFrom (x : List Byte) (n : Nat) : Prop := x.drop n = zeros (x.length - n)

theorem ZeroFrom.mono {x : List Byte} {n m : Nat} (h : ZeroFrom x n) (hnm : n ≤ m) : ZeroFrom x m := by
  obtain ⟨j, rfl⟩ := Nat.exists_eq_add_of_le hnm
  calc
    x.drop (n + j) = (zeros (x.length - n)).drop j := by rw [← List.drop_drop, h]
    _ = zeros (x.length - (n + j)) := by rw [zeros, List.drop_replicate, Nat.sub_sub, zeros]

section Search
variable {x : List Byte} {d : Digest} {k n : Nat}

theorem resolveFrom_of_not_zeroFrom (hz : ¬ ZeroFrom x n) : resolveFrom x d (k + 1) n = none :=
  if_pos hz

theorem resolveFrom_of_hash_eq (hz : ZeroFrom x n) (hd : hashOf (x.take n) = d) :
    resolveFrom x d (k + 1) n = some n :=
  (if_neg (not_not_intro hz)).trans (if_pos hd)

theorem resolveFrom_of_hash_ne (hz : ZeroFrom x n) (hd : hashOf (x.take n) ≠ d) :
    resolveFrom x d (k + 1) n = resolveFrom x d k (n - 1) :=
  (if_neg (not_not_intro hz)).trans (if_neg hd)

end Search

/-- The search finds the longest of its candidates, the lengths `r` with `n - k < r ≤ n`, that R116 accepts. -/
theorem resolveFrom_eq_some_iff (x : List Byte) (d : Digest) (r : Nat) {k n : Nat} (hk : k ≤ n) :
    resolveFrom x d k n = some r ↔
      n < r + k ∧ r ≤ n ∧ ZeroFrom x r ∧ hashOf (x.take r) = d ∧
        ∀ m, r < m → m ≤ n → hashOf (x.take m) ≠ d := by
  induction k generalizing n with
  | zero => simp only [resolveFrom, reduceCtorEq, false_iff]; omega
  | succ k ih =>
    by_cases hz : ZeroFrom x n
    case neg =>
      rw [resolveFrom_of_not_zeroFrom hz]
      exact ⟨nofun, fun ⟨_, hr, hzr, _⟩ => absurd (hzr.mono hr) hz⟩
    by_cases hd : hashOf (x.take n) = d
    case pos =>
      rw [resolveFrom_of_hash_eq hz hd, Option.some_inj]
      constructor
      · rintro rfl
        exact ⟨by omega, Nat.le_refl _, hz, hd, fun m hm hm' => absurd hm (Nat.not_lt.mpr hm')⟩
      · rintro ⟨_, hr, _, _, hlongest⟩
        by_contra hne
        exact hlongest n (by omega) (Nat.le_refl _) hd
    case neg =>
      rw [resolveFrom_of_hash_ne hz hd, ih (by omega)]
      constructor
      · rintro ⟨hlow, hr, hzr, hdr, hlongest⟩
        refine ⟨by omega, by omega, hzr, hdr, fun m hm hm' => ?_⟩
        rcases Nat.eq_or_lt_of_le hm' with rfl | hlt
        · exact hd
        · exact hlongest m hm (by omega)
      · rintro ⟨hlow, hr, hzr, hdr, hlongest⟩
        have hne : r ≠ n := fun h => hd (h ▸ hdr)
        exact ⟨by omega, by omega, hzr, hdr, fun m hm hm' => hlongest m hm (by omega)⟩

/-- The search fails exactly where R116 accepts none of its candidates: where it accepts one, the longest length whose digest
matches is an accepted candidate too. -/
theorem resolveFrom_eq_none_iff (x : List Byte) (d : Digest) {k n : Nat} (hk : k ≤ n) :
    resolveFrom x d k n = none ↔ ∀ m, n < m + k → m ≤ n → ZeroFrom x m → hashOf (x.take m) ≠ d := by
  rw [Option.eq_none_iff_forall_ne_some]
  constructor
  · intro hnone m hlow hm hzm hdm
    obtain ⟨r, hr⟩ : ∃ r, r = Nat.findGreatest (fun j => hashOf (x.take j) = d) n := ⟨_, rfl⟩
    have hmr : m ≤ r := hr ▸ Nat.le_findGreatest hm hdm
    have hrn : r ≤ n := hr ▸ Nat.findGreatest_le n
    have hdr : hashOf (x.take r) = d := hr ▸ Nat.findGreatest_spec (P := fun j => hashOf (x.take j) = d) hm hdm
    exact hnone r ((resolveFrom_eq_some_iff x d r hk).mpr
      ⟨by omega, hrn, hzm.mono hmr, hdr, fun _ hj hjn => Nat.findGreatest_is_greatest (hr ▸ hj) hjn⟩)
  · intro h r hr
    obtain ⟨hlow, hrn, hzr, hdr, _⟩ := (resolveFrom_eq_some_iff x d r hk).mp hr
    exact h r hlow hrn hzr hdr

end Sys2Proof.Machine

open Sys2Proof Sys2Proof.Machine

/-- Settles O52: the resolution is the search over the sixteen candidates from the whole length down. -/
theorem resolvePaddingFindsTheLongestMatch : Obligations.ResolvePaddingFindsTheLongestMatch := by
  intro x d hx
  have hcandidate (n : Nat) : x.length < n + 16 ↔ x.length - 15 ≤ n := by omega
  refine ⟨fun r => ?_, ?_⟩
  · rw [resolvePadding, resolveFrom_eq_some_iff x d r hx, hcandidate, ZeroFrom]
  · simp only [resolvePadding, resolveFrom_eq_none_iff x d hx, hcandidate, ZeroFrom]
end

section
/-! PROOF. The self-test gate, issue and NOP (45_selftest_and_control.md R121, R124, R125): the first check of every gated
command is ST_PASS, the other commands report OK or SELFTEST_FAILURE, and a write to CMD is `issue` or an ignored access. -/

namespace Sys2Proof.Machine

/-- Until the self-test has passed, the first check of every gated command ends it (R124, R132). -/
theorem ruleOf_of_gated {i : Instr} (hg : gated i = true) {s : State} (hp : s.stPass = false) (L : Latched) :
    ruleOf i L s = s.raise .notTested := by
  have hgate : (!s.stPass) = true := by rw [hp]; rfl
  cases i with
  | nop | invalidate | selftest => cases hg
  | hash | ecbEncrypt | ecbDecrypt | cbcEncrypt | cbcDecrypt | setPassword | payloadEncrypt | payloadDecrypt =>
    exact if_pos hgate

/-- SELFTEST's error says its result (R129). -/
theorem selftestRule_err (L : Latched) (s : State) :
    (selftestRule L s).err = if selftestRun = true then .ok else .selftestFailure := by
  cases h : selftestRun <;> simp [selftestRule, h]

/-- A legal write to CMD is a write to that register once the input is taken (R20, R44). -/
theorem step_of_cmdWrite {s : State} {v : Word32} {rest : List Event}
    (hin : s.inputs = .host (.write 4 0x00C v) :: rest) :
    step s = .next ((writeAt v { s with inputs := rest } 0x00C).respond .done) := by
  have hpop : s.popInput = { s with inputs := rest } := by rw [State.popInput, hin, List.tail_cons]
  rw [step_of_host hin, hpop, hostAccess, hostWrite_of_aligned (by decide) (by decide)]
  rfl

end Sys2Proof.Machine

open Sys2Proof Sys2Proof.Machine

/-- Settles O27: the gate is the first check of a gated command's rule, and each of the other three rules says its error. -/
theorem selftestGateRefusesGatedCommands : Obligations.SelftestGateRefusesGatedCommands := by
  intro s L i hL
  rw [exec_of_latched hL]
  refine ⟨fun hg hp => congrArg Host.Outcome.next (ruleOf_of_gated hg hp L), ?ungated⟩
  rintro (rfl | rfl | rfl) t ⟨⟩
  case inl => exact nofun
  case inr.inl => exact nofun
  case inr.inr =>
    have herr : (ruleOf .selftest L s).err = _ := selftestRule_err L s
    rw [herr]
    split <;> exact nofun

/-- Settles O14: while idle the write is `issue`, and while BUSY it is ignored. -/
theorem writingCmdIssuesTheCommand : Obligations.WritingCmdIssuesTheCommand := by
  intro s v rest hin
  have hstep := step_of_cmdWrite hin
  constructor
  · intro hidle
    rw [writeAt_cmd_of_idle (s := { s with inputs := rest }) hidle] at hstep
    refine ⟨hstep, fun t ht => ?_⟩
    cases hstep.symm.trans ht
    rfl
  · intro hbusy
    rwa [writeAt_of_busy (by decide) (s := { s with inputs := rest }) hbusy] at hstep

/-- Settles O30: NOP is its rule, which makes no check and only succeeds. -/
theorem nopOnlyCompletes : Obligations.NopOnlyCompletes :=
  ⟨rfl, fun _ _ hL => exec_of_latched hL⟩
end

section
/-! PROOF. The known-answer self-test (45_selftest_and_control.md R127, R128). The harness runs through the values that
95_test_vectors.md 6.1 lists: the encryption of each step is evaluated on its own, from the listed values before it, and
its decryption is the cipher's inverse law (R88), not a second evaluation. -/

namespace Sys2Proof.Machine

/-- A block from its sixteen bytes written as one number, first byte first. -/
def blockOf (v : BitVec 128) : Block := Vector.ofFn fun j : Fin 16 => v.extractLsb' (8 * (15 - j.val)) 8

/-- The plaintext of step 1 and then the ciphertexts of the 49 steps (95_test_vectors.md 6.1). -/
def harnessValues : List (BitVec 128) :=
  [0,
   0x57FF739D4DC92C1BD7FC01700CC8216F, 0xD43BB7556EA32E46F2A282B7D45B4E0D, 0x90AFE91BB288544F2C32DC239B2635E6,
   0x6CB4561C40BF0A9705931CB6D408E7FA, 0x3059D6D61753B958D92F4781C8640E58, 0xE69465770505D7F80EF68CA38AB3A3D6,
   0x5AB67A5F8539A4A5FD9F0373BA463466, 0xDC096BCD99FC72F79936D4C748E75AF7, 0xC5A3E7CEE0F1B7260528A68FB4EA05F2,
   0x43D5CEC327B24AB90AD34A79D0469151, 0x05BA7BE9BE5274FBEB4AC5FD5FAAFA10, 0x89D513B989E3CECE4D2E3E4C15D4E01C,
   0xE56E462AE2E66F800CE2224C4CAFACBE, 0xF5DBEE5414D79CA46BE17346FDC72BF5, 0xC780FC28815E667B3D224ECF1F4A7D65,
   0x2EF17A0D75440ECEC9AF18D29ABA3CDA, 0xD653FDFF96BCF89A929F6377AB41967A, 0x36BBAD8838380C8793A7AEA0A11D04D2,
   0x034EFECFC0EFC00D82C3345A8708AE78, 0xEA38887307337A2934A9EB802F6CFDDD, 0x7C279D47775AB4C26442E8A117943DD8,
   0xE3CF581056EBC1169CF451E930308726, 0x65527B29D489C8CDDC62E5E7FFC4E924, 0x3B491F930230A0170819CACB48F9030C,
   0xA7C8193F35AF63B51D7F9DEDCEC85866, 0x009A48F9A1C27F9AA5F9BD909C848B60, 0x3B507E987B3F827A093B26C85CDFF6C6,
   0xEAFB3BA6C78E37214FE908669BC24F6F, 0x2B09F10D7F2B62A4D0DAFFB9F882B980, 0xE6B9FE907009B2DC649412DD630AE576,
   0xF2E4DC89724CD58F85847BD09ED4500F, 0xDC650444FCEBC2BD6E450EF4605FCABE, 0xB7CFB31755FDA2AB0A67FBA09901A73E,
   0x9C7E7578F3D2923DCDABFED0A5EF86EE, 0x9465E9AE176483BD398C8033AA136F68, 0x8551279DE9991805FCFC1937C52AE9D4,
   0xA830EB8DA52ECFF7F93B7627322CF9D7, 0xEC89F0E5155425D4B92BD4B200C1A6E0, 0x8AF76A782061D38360C6C3CDDCBE1516,
   0xD4EEAA6A069659D5D88590DE75515631, 0x259C021D37B077197B80FCDB07EA1AF2, 0x300CC8B4171F0E9BD75710FAD033C570,
   0x5CFA5BD213A74F02E65390A4C14A1DF6, 0xA443EA1B2C5747CE7EC5F21D4FE0C147, 0xD2DED73E59319A8138E0331F0EA149EA,
   0x2E2158BC3E5FC714C1EEECA0EA696D48, 0x248A7F3528B168ACFDD1386E3F51E30C, 0x431058F4DBC7F734DA4F02F04CC4F459,
   0x37FE26FF1CF66175F5DDF4C33B97A205]

/-- The plaintext of step `i + 1`, which is the ciphertext of step `i` (R128). -/
def harnessBlock (i : Nat) : Block := blockOf (harnessValues.getD i 0)

/-- A key from its two halves. -/
def keyOf (a b : Block) : Key := a ++ b

theorem keyOf_toList (a b : Block) : (keyOf a b).toList = a.toList ++ b.toList := Vector.toList_append

/-- The key of step `i + 1`: the plaintexts of the two steps before, those of steps that do not exist being zero as the
first one is. -/
def harnessKey (i : Nat) : Key := keyOf (harnessBlock (i - 1)) (harnessBlock (i - 2))

/-- The next key is `(pt ‖ key)[0..32)` (R128). -/
theorem feedbackKey_toList (pt : Block) (key : Key) :
    (feedbackKey pt key).toList = (pt.toList ++ key.toList).take 32 := by
  apply List.ext_getElem
  · simp
  · intro j hj _
    simp only [feedbackKey, Vector.getElem_toList, Vector.getElem_ofFn, List.getElem_take, List.getElem_append,
      Vector.length_toList]

/-- The feedback keeps the key's first half as its second. -/
theorem feedbackKey_keyOf (pt a b : Block) : feedbackKey pt (keyOf a b) = keyOf pt a := by
  apply Vector.toList_inj.mp
  rw [feedbackKey_toList, keyOf_toList, keyOf_toList, ← List.append_assoc]
  exact List.take_left' (by simp)

theorem feedbackKey_harness (i : Nat) : feedbackKey (harnessBlock i) (harnessKey i) = harnessKey (i + 1) :=
  feedbackKey_keyOf _ _ _

/-- Step `i + 1` gives the listed ciphertext. -/
abbrev StepAsListed (i : Nat) : Prop :=
  tfEncrypt (keySchedule (harnessKey i)) (harnessBlock i) = harnessBlock (i + 1)

/-! The kernel takes about two seconds to evaluate a step, so the 49 steps are evaluated in seven lots. -/

theorem steps_1_to_7_asListed {i : Nat} (hhi : i < 7) : StepAsListed i := by
  interval_cases i <;> decide +kernel

theorem steps_8_to_14_asListed {i : Nat} (hlo : 7 ≤ i) (hhi : i < 14) : StepAsListed i := by
  interval_cases i <;> decide +kernel

theorem steps_15_to_21_asListed {i : Nat} (hlo : 14 ≤ i) (hhi : i < 21) : StepAsListed i := by
  interval_cases i <;> decide +kernel

theorem steps_22_to_28_asListed {i : Nat} (hlo : 21 ≤ i) (hhi : i < 28) : StepAsListed i := by
  interval_cases i <;> decide +kernel

theorem steps_29_to_35_asListed {i : Nat} (hlo : 28 ≤ i) (hhi : i < 35) : StepAsListed i := by
  interval_cases i <;> decide +kernel

theorem steps_36_to_42_asListed {i : Nat} (hlo : 35 ≤ i) (hhi : i < 42) : StepAsListed i := by
  interval_cases i <;> decide +kernel

theorem steps_43_to_49_asListed {i : Nat} (hlo : 42 ≤ i) (hhi : i < 49) : StepAsListed i := by
  interval_cases i <;> decide +kernel

theorem stepAsListed {i : Nat} (hi : i < 49) : StepAsListed i := by
  have hlot : i / 7 < 7 := by omega
  interval_cases hk : i / 7
  · exact steps_1_to_7_asListed (by omega)
  · exact steps_8_to_14_asListed (by omega) (by omega)
  · exact steps_15_to_21_asListed (by omega) (by omega)
  · exact steps_22_to_28_asListed (by omega) (by omega)
  · exact steps_29_to_35_asListed (by omega) (by omega)
  · exact steps_36_to_42_asListed (by omega) (by omega)
  · exact steps_43_to_49_asListed (by omega) (by omega)

/-- Each listed ciphertext decrypts back to the plaintext of its step (R88). -/
theorem tfDecrypt_harnessBlock {i : Nat} (hi : i < 49) :
    tfDecrypt (keySchedule (harnessKey i)) (harnessBlock (i + 1)) = harnessBlock i := by
  rw [← stepAsListed hi, tfDecrypt_tfEncrypt]

/-- From any listed step on, the harness runs through the listed values and refuses none. -/
theorem harness_asListed {n i : Nat} (hi : i + n ≤ 49) :
    harness n (harnessKey i) (harnessBlock i) (harnessBlock i) = some (harnessBlock (i + n)) := by
  induction n generalizing i with
  | zero => rfl
  | succ n ih =>
    have hlt : i < 49 := by omega
    rw [harness_succ, stepAsListed hlt, tfDecrypt_harnessBlock hlt, if_neg (not_not_intro rfl), feedbackKey_harness,
      ih (by omega), Nat.add_right_comm, Nat.add_assoc]

theorem harnessKey_zero : harnessKey 0 = Vector.replicate 32 0 := by decide

theorem harnessBlock_zero : harnessBlock 0 = Vector.replicate 16 0 := by decide

/-- The last listed ciphertext is the published one (R127). -/
theorem harnessBlock_last : harnessBlock 49 = selftestCiphertext := by decide

/-- The digest engine reproduces the published digest (R73, R127). -/
theorem hashOf_selftestMessage : hashOf selftestMessage = selftestDigest := by decide +kernel

/-- `SelfTestRun()` is true (R128): the digest is the published one, and so is the harness's last ciphertext. -/
theorem selftestRun_eq_true : selftestRun = true := by
  have hharness : harness 49 (harnessKey 0) (harnessBlock 0) (harnessBlock 0) = some selftestCiphertext := by
    rw [harness_asListed (Nat.le_refl _), harnessBlock_last]
  rw [harnessKey_zero, harnessBlock_zero] at hharness
  unfold selftestRun
  rw [if_neg (not_not_intro hashOf_selftestMessage), hharness, beq_self_eq_true]

end Sys2Proof.Machine

open Sys2Proof Sys2Proof.Machine

/-- Settles O42: the constants are R127's as written, the digest is evaluated, and the listed keys and plaintexts are the
two sequences of R128. -/
theorem selftestPassesOnThisHardware : Obligations.SelftestPassesOnThisHardware := by
  refine ⟨selftestRun_eq_true, by decide, by decide, by decide, hashOf_selftestMessage,
    harnessKey, harnessBlock, harnessKey_zero, harnessBlock_zero, fun i hi => ?step, harnessBlock_last⟩
  exact ⟨(stepAsListed hi).symm, tfDecrypt_harnessBlock hi, by rw [← feedbackKey_harness, feedbackKey_toList]⟩
end

section
/-! PROOF. Bus errors (20_memory.md R44, 60_exceptions.md R133): an access is legal exactly where the model's two checks say so,
an illegal one is `busFault`, and nothing else writes the record of bus errors. -/

namespace Sys2Proof.Machine

/-- The model's check of a register access is R44 (a). -/
theorem legalRegisterAccess_iff {w o : Nat} : legalRegisterAccess w o = true ↔ o ≤ 0xFF ∧ w = 4 ∧ o % 4 = 0 := by
  simp [legalRegisterAccess, registerWindow, Nat.lt_succ_iff, and_assoc]

/-- The model makes the checks of R44 and no other. -/
theorem legalAccess_iff {c : Params} {w o : Nat} :
    LegalAccess c w o ↔ legalRegisterAccess w o = true ∨ legalBufferAccess c w o = true := by
  rw [legalRegisterAccess_iff, legalBufferAccess_iff]
  rfl

/-- An access that is not legal is a bus error and nothing else (R44, R133). -/
theorem hostAccess_of_illegal {a : Access} {s : State} (h : ¬ LegalAccess s.cfg a.place.1 a.place.2) :
    hostAccess a s = s.busFault a := by
  rw [legalAccess_iff, not_or] at h
  obtain ⟨hreg, hbuf⟩ := h
  cases a with
  | read w o => exact (if_neg hreg).trans (if_neg hbuf)
  | write w o v => exact (if_neg hreg).trans (if_neg hbuf)

theorem writeAt_busErrors (v : Word32) (s : State) (o : Nat) : (writeAt v s o).busErrors = s.busErrors := by
  rcases writeAt_cases v s o with h | ⟨_, h⟩ | ⟨_, h⟩ | ⟨_, h⟩ | ⟨_, h⟩ | ⟨_, h⟩ | h | h <;> rw [h] <;> rfl

/-- A legal access adds nothing to the record of bus errors. -/
theorem hostAccess_busErrors_of_legal {a : Access} {s : State} (h : LegalAccess s.cfg a.place.1 a.place.2) :
    (hostAccess a s).busErrors = s.busErrors := by
  rw [legalAccess_iff] at h
  cases a with
  | read w o =>
    rcases hostRead_cases w o s with ⟨_, hr⟩ | ⟨_, _, _, hr⟩ | ⟨_, _, _, hr⟩ | ⟨hreg, hbuf, _⟩
    case inr.inr.inr => exact absurd h (by simp [Access.place, hreg, hbuf])
    all_goals rw [hostAccess, hr]; rfl
  | write w o v =>
    rcases hostWrite_cases w o v s with ⟨_, hw⟩ | ⟨_, _, _, hw⟩ | ⟨_, _, _, hw⟩ | ⟨hreg, hbuf, _⟩
    · rw [hostAccess, hw]
      exact writeAt_busErrors v s o.toNat
    case inr.inr.inr => exact absurd h (by simp [Access.place, hreg, hbuf])
    all_goals rw [hostAccess, hw]; rfl

/-- `f` is a part of the state that no command touches: neither the shared operations nor a write of the vault do. -/
structure KeptByCommands {α : Type} (f : State → α) : Prop extends KeptByCommonOps f where
  setVault (s : State) (v : Key) (valid : Bool) : f (s.setVault v valid) = f s

theorem KeptByCommands.ruleOf {α : Type} {f : State → α} (hf : KeptByCommands f) (i : Instr) (L : Latched)
    (s : State) : f (Machine.ruleOf i L s) = f s := by
  by_cases hset : i = .setPassword
  · subst hset
    rcases setPasswordRule_cases L s with ⟨_, _, h⟩ | ⟨_, _, h⟩
    · rw [Machine.ruleOf, h, hf.raise]
    · rw [Machine.ruleOf, h, hf.succeed, hf.setVault, hf.noteRead]
  by_cases hinv : i = .invalidate
  · subst hinv
    rw [Machine.ruleOf, invalidateRule, hf.succeed, hf.setVault]
  · exact hf.toKeptByCommonOps.ruleOf hset hinv L s

/-- The Engine's step completes a command, completes an illegal word, or waits (R122), and keeps `f` in each case. -/
theorem KeptByCommands.engineStep {α : Type} {f : State → α} (hf : KeptByCommands f) {s t : State}
    (h : engineStep s = .next t) : f t = f s := by
  rcases engineStep_cases s with ⟨_, hw⟩ | ⟨_, _, _, _, he⟩ | ⟨L, i, _, _, hr⟩
  · cases hw.symm.trans h
    rfl
  · cases he.symm.trans h
    exact hf.raise s .illegalCmd
  · cases hr.symm.trans h
    exact hf.ruleOf i L s

theorem busErrors_kept : KeptByCommands State.busErrors where
  complete _ _ _ := rfl
  noteRead _ := rfl
  memWrite _ _ _ := rfl
  noteTrng _ := rfl
  noteSelftest _ _ := rfl
  setVault _ _ _ := rfl

end Sys2Proof.Machine

open Sys2Proof Sys2Proof.Machine

/-- Settles O11: the model's checks are R44's, an access that fails them is `busFault`, and neither a legal access nor a
reset nor the Engine's step touches the record. -/
theorem illegalAccessGetsABusErrorAndChangesNothing : Obligations.IllegalAccessGetsABusErrorAndChangesNothing := by
  refine ⟨fun s a rest hin hill => ?fault, fun s t h => ?record⟩
  case fault =>
    rw [step_of_host hin, hostAccess_of_illegal (s := s.popInput) hill, State.popInput, hin]
    rfl
  case record =>
    rcases step_cases h with ⟨a, rest, hin, rfl⟩ | ⟨_, _, rfl⟩ | ⟨_, he⟩
    · by_cases hleg : LegalAccess s.cfg a.place.1 a.place.2
      · exact .inl (hostAccess_busErrors_of_legal (s := s.popInput) hleg)
      · refine .inr ⟨a, rest, hin, hleg, ?_⟩
        rw [hostAccess_of_illegal (s := s.popInput) hleg]
        rfl
    · exact .inl rfl
    · exact .inl (busErrors_kept.engineStep (s := s.popInput) he)
end

section
/-! PROOF. How a command ends (45_selftest_and_control.md R122, 60_exceptions.md R131): it succeeds, or it raises its error
in a state that differs from the one it began in only in which draws are used up, and for SELFTEST in its result. -/

namespace Sys2Proof.Machine

/-- The states a command can raise its error in: its checks have changed nothing, but they may have read the input or asked
the randomness source, both of which the model numbers (R48, R137). -/
inductive State.RaisesIn (s : State) : State → Prop
  | unread : s.RaisesIn s
  | inputRead : s.RaisesIn s.noteRead
  | tokenAsked : s.RaisesIn s.noteTrng

/-- How a command ends: it succeeds, or it raises an error in a state its checks have not changed. -/
def State.Ends (s t : State) : Prop :=
  (∃ (u : State) (n : Nat), t = u.succeed n) ∨ ∃ (c : ErrCode) (u : State), s.RaisesIn u ∧ t = u.raise c

theorem State.ends_succeed (s u : State) (n : Nat) : s.Ends (u.succeed n) := .inl ⟨u, n, rfl⟩

theorem State.ends_raise (s : State) (c : ErrCode) : s.Ends (s.raise c) := .inr ⟨c, s, .unread, rfl⟩

theorem payloadEncryptRule_ends (L : Latched) (s : State) : s.Ends (payloadEncryptRule L s) := by
  rcases payloadEncryptRule_cases L s with
    ⟨c, _, h⟩ | ⟨_, _, _, _, _, h⟩ | ⟨_, _, _, _, _, _, h⟩ | ⟨_, _, _, _, _, _, _, h⟩ <;> rw [h]
  · exact s.ends_raise c
  · exact s.ends_succeed _ _
  · exact .inr ⟨_, _, .tokenAsked, rfl⟩
  · exact s.ends_succeed _ _

/-- PAYLOAD_DECRYPT makes its last checks on the input it has read (R115, R116). -/
theorem payloadDecryptRule_ends (L : Latched) (s : State) : s.Ends (payloadDecryptRule L s) := by
  rcases payloadDecryptRule_cases L s with ⟨c, _, h⟩ | ⟨_, _, _, h⟩ <;> rw [h]
  · exact s.ends_raise c
  rcases parsePayload_cases L (s.input L) s.noteRead with ⟨c, _, h⟩ | ⟨_, _, _, h⟩ | ⟨_, _, _, _, h⟩ <;> rw [h]
  · exact .inr ⟨c, _, .inputRead, rfl⟩
  · exact s.ends_succeed _ _
  rcases openPayload_cases L (s.input L) s.noteRead with h | ⟨_, _, h⟩ <;> rw [h]
  · exact .inr ⟨_, _, .inputRead, rfl⟩
  · exact s.ends_succeed _ _

theorem ruleOf_ends {i : Instr} (hi : i ≠ .selftest) (L : Latched) (s : State) : s.Ends (ruleOf i L s) := by
  cases i with
  | nop | invalidate => exact s.ends_succeed _ _
  | hash =>
    rcases hashRule_cases L s with ⟨c, _, h⟩ | ⟨_, _, _, h⟩ <;> rw [ruleOf, h]
    exacts [s.ends_raise c, s.ends_succeed _ _]
  | ecbEncrypt =>
    rcases ecbEncryptRule_cases L s with ⟨c, _, h⟩ | ⟨_, _, _, _, _, h⟩ <;> rw [ruleOf, h]
    exacts [s.ends_raise c, s.ends_succeed _ _]
  | ecbDecrypt =>
    rcases ecbDecryptRule_cases L s with ⟨c, _, h⟩ | ⟨_, _, _, _, _, h⟩ <;> rw [ruleOf, h]
    exacts [s.ends_raise c, s.ends_succeed _ _]
  | cbcEncrypt =>
    rcases cbcEncryptRule_cases L s with ⟨c, _, h⟩ | ⟨_, _, _, _, h⟩ <;> rw [ruleOf, h]
    exacts [s.ends_raise c, s.ends_succeed _ _]
  | cbcDecrypt =>
    rcases cbcDecryptRule_cases L s with ⟨c, _, h⟩ | ⟨_, _, _, _, _, h⟩ <;> rw [ruleOf, h]
    exacts [s.ends_raise c, s.ends_succeed _ _]
  | setPassword =>
    rcases setPasswordRule_cases L s with ⟨c, _, h⟩ | ⟨_, _, h⟩ <;> rw [ruleOf, h]
    exacts [s.ends_raise c, s.ends_succeed _ _]
  | payloadEncrypt => exact payloadEncryptRule_ends L s
  | payloadDecrypt => exact payloadDecryptRule_ends L s
  | selftest => exact absurd rfl hi

/-- SELFTEST writes its result in both cases, and reports the one it ends with (R129). -/
theorem selftestRule_cases (L : Latched) (s : State) :
    selftestRule L s = (s.noteSelftest true).succeed 0 ∨
    selftestRule L s = (s.noteSelftest false).raise .selftestFailure := by
  cases h : selftestRun <;> simp [selftestRule, h]

end Sys2Proof.Machine

open Sys2Proof Sys2Proof.Machine

/-- Settles O24: a command that reports an error has raised it in a state its checks have not changed, and SELFTEST in one
where only its result is written. -/
theorem failedCommandHasNoOtherEffect : Obligations.FailedCommandHasNoOtherEffect := by
  intro s t L i hL h herr
  cases (exec_of_latched hL).symm.trans h
  by_cases hi : i = .selftest
  case pos =>
    subst hi
    rcases selftestRule_cases L s with hok | hfail
    · exact absurd (congrArg State.err hok) herr
    · simp [ruleOf, hfail]
  case neg =>
    rcases ruleOf_ends hi L s with ⟨u, n, hok⟩ | ⟨c, u, hu, hfail⟩
    · exact absurd (congrArg State.err hok) herr
    · rw [hfail]
      cases hu <;> simp [hi]
end

section
/-! PROOF. The interrupt output (60_exceptions.md R134): every completion makes DONE pending and keeps IGN and the enables, and
every ignored access makes IGN pending (20_memory.md R47). -/

namespace Sys2Proof.Machine

/-- Every command's last operation is its completion, which sets DONE (R122, R134). -/
theorem ruleOf_intDone (i : Instr) (L : Latched) (s : State) : (ruleOf i L s).intDone = true := by
  by_cases hi : i = .selftest
  · subst hi
    rcases selftestRule_cases L s with h | h <;> rw [ruleOf, h] <;> rfl
  · rcases ruleOf_ends hi L s with ⟨_, _, h⟩ | ⟨_, _, _, h⟩ <;> rw [h] <;> rfl

/-- The Engine's step on any latched word sets DONE. -/
theorem engineStep_intDone {s : State} {L : Latched} (hL : s.latched = some L) :
    ∃ t, engineStep s = .next t ∧ t.intDone = true := by
  rcases engineStep_cases s with ⟨hnone, _⟩ | ⟨_, _, _, _, he⟩ | ⟨M, i, _, _, hr⟩
  · cases hnone.symm.trans hL
  · exact ⟨_, he, rfl⟩
  · exact ⟨_, hr, ruleOf_intDone i M s⟩

/-- What `irq` depends on but DONE (R134): IGN and the two enables. -/
def State.irqRest (s : State) : Bool × Bool × Bool := (s.doneIe, s.intIgn, s.ignIe)

theorem irqRest_kept : KeptByCommands State.irqRest where
  complete _ _ _ := rfl
  noteRead _ := rfl
  memWrite _ _ _ := rfl
  noteTrng _ := rfl
  noteSelftest _ _ := rfl
  setVault _ _ _ := rfl

/-- With DONE pending, `irq` is DONE_IE or an enabled IGN. -/
theorem irq_of_intDone {s t : State} (hdone : t.intDone = true) (hrest : t.irqRest = s.irqRest) :
    t.irq = (s.doneIe || (s.intIgn && s.ignIe)) := by
  obtain ⟨hde, hign, hie⟩ : t.doneIe = s.doneIe ∧ t.intIgn = s.intIgn ∧ t.ignIe = s.ignIe := by
    simpa [State.irqRest] using hrest
  rw [State.irq, hdone, hde, hign, hie, Bool.true_and]

/-- An ignored access makes IGN pending, whatever the response to it is (R47). -/
theorem irq_setIgn_respond (s : State) (r : Response) :
    (s.setIgn.respond r).irq = ((s.intDone && s.doneIe) || s.ignIe) := by
  simp [State.irq]

end Sys2Proof.Machine

open Sys2Proof Sys2Proof.Machine

/-- Settles O55: a completion makes DONE pending and an ignored access IGN, and a write to INT_STATUS or INT_ENABLE is
`clearIntStatus` or `setIntEnable`. -/
theorem interruptOutputIsItsFormula : Obligations.InterruptOutputIsItsFormula := by
  refine fun s => ⟨rfl, fun L hL => ?completed, fun hb => ⟨fun w o hl => ⟨?read, fun v => ?write⟩, fun o v ho => ?register⟩,
    fun v => ⟨?clear, ?mask⟩⟩
  case completed =>
    obtain ⟨t, ht, hdone⟩ := engineStep_intDone hL
    exact ⟨t, ht, irq_of_intDone hdone (irqRest_kept.engineStep ht)⟩
  case read => rw [hostRead_buffer_of_busy hl hb, irq_setIgn_respond]
  case write => rw [hostWrite_buffer_of_busy hl hb, irq_setIgn_respond]
  case register =>
    obtain ⟨hle, hal⟩ : o.toNat ≤ 0xFF ∧ o.toNat % 4 = 0 := by
      simp only [List.mem_cons, List.not_mem_nil, or_false] at ho
      omega
    rw [hostWrite_of_aligned hle hal, writeAt_of_busy ho hb, irq_setIgn_respond]
  case clear => rw [hostWrite_of_aligned (by decide) (by decide)]; rfl
  case mask => rw [hostWrite_of_aligned (by decide) (by decide)]; rfl
end

section
/-! PROOF. The one error a command reports (60_exceptions.md R132): each rule makes the checks that apply to its command, in the
order of R132. -/

namespace Sys2Proof.Machine

theorem srcInBounds_eq_false_iff {c : Params} {L : Latched} :
    L.srcInBounds c = false ↔ c.bufBytes < L.src.toNat + L.len.toNat := by
  rw [← Bool.not_eq_true, srcInBounds_iff, Nat.not_le]

theorem dstInBounds_eq_false_iff {c : Params} {L : Latched} {n : Nat} :
    L.dstInBounds c n = false ↔ c.bufBytes < L.dst.toNat + n := by
  rw [← Bool.not_eq_true, dstInBounds_iff, Nat.not_le]

/-- Check 6 is the check of the marker (R117). -/
theorem hasMarker_eq_false_iff {c : Params} {p : List Byte} :
    hasMarker c.marker p = false ↔ p.length < c.markerLen ∨ p.take c.markerLen ≠ c.marker := by
  simp [hasMarker, imp_iff_not_or]

section
variable (L : Latched) (s : State)

/-- For every command but PAYLOAD_DECRYPT, the checks of a payload are skipped (R132). -/
theorem firstFailure_of_ne_payloadDecrypt {i : Instr} (hi : i ≠ .payloadDecrypt) :
    firstFailure i L s =
      if gated i ∧ s.stPass = false then .notTested
      else if keyed i ∧ s.keyValid = false then .noKey
      else if readsInput i ∧ s.cfg.bufBytes < L.src.toNat + L.len.toNat then .range
      else if badLength i L.len.toNat then .badLength
      else if outputOutOfBounds i s.cfg L then .range
      else if i = .payloadEncrypt ∧ L.len.toNat ≠ 0 ∧ s.trngAnswer = .unavailable then .randomnessUnavailable
      else if i = .selftest ∧ selftestRun = false then .selftestFailure
      else .ok := by
  simp [firstFailure, foreignPayload, corruptedPayload, mismatchedPayload, hi]

/-- Check 9: the token is asked for last (R137). -/
theorem sealPayload_err :
    (sealPayload L s).err = if s.trngAnswer = .unavailable then .randomnessUnavailable else .ok := by
  unfold sealPayload
  cases s.trngAnswer <;> simp

/-- The output range of PAYLOAD_ENCRYPT depends on whether there is a plaintext, and only then is a token asked for. -/
theorem payloadEncryptRule_err : (payloadEncryptRule L s).err = firstFailure .payloadEncrypt L s := by
  rw [firstFailure_of_ne_payloadDecrypt L s (by decide)]
  by_cases hempty : L.len.toNat = 0
  all_goals
    simp [payloadEncryptRule, apply_ite State.err, sealPayload_err, gated, keyed, readsInput, badLength,
      outputOutOfBounds, outputBound, payloadLength, ceil16, Latched.length, srcInBounds_eq_false_iff,
      dstInBounds_eq_false_iff, hempty]

/-- What a payload says does not depend on how often the buffer was read. -/
theorem mismatchedPayload_noteRead (i : Instr) (p : List Byte) :
    mismatchedPayload i s.noteRead p = mismatchedPayload i s p := rfl

/-- Check 10 for a payload that is not the marker alone (R116). -/
theorem openPayload_err {p : List Byte} (hp : p.length ≠ s.cfg.markerLen) :
    (openPayload L p s).err =
      if mismatchedPayload .payloadDecrypt s p then .integrityMismatch else .ok := by
  simp only [openPayload, mismatchedPayload]
  split <;> simp [*]

/-- The checks PAYLOAD_DECRYPT makes on its payload. The marker alone is an empty document, which is not CORRUPTED and has
no digest to compare; for a longer payload, check 7 is the two of R115. -/
theorem parsePayload_err {p : List Byte} (hp : p.length = L.len.toNat) :
    (parsePayload L p s).err =
      if foreignPayload .payloadDecrypt s.cfg p then .foreignFormat
      else if corruptedPayload .payloadDecrypt s.cfg L.len.toNat then .corrupted
      else if outputOutOfBounds .payloadDecrypt s.cfg L then .range
      else if mismatchedPayload .payloadDecrypt s p then .integrityMismatch
      else .ok := by
  by_cases hempty : L.len.toNat = s.cfg.markerLen
  · have hmatch : mismatchedPayload .payloadDecrypt s p = false := by simp [mismatchedPayload, hp, hempty]
    simp [parsePayload, apply_ite State.err, foreignPayload, corruptedPayload, outputOutOfBounds, outputBound,
      hasMarker_eq_false_iff, dstInBounds_eq_false_iff, Latched.length, hempty, hmatch]
  · have hopen := openPayload_err L s (p := p) (hp ▸ hempty)
    simp [parsePayload, apply_ite State.err, foreignPayload, corruptedPayload, outputOutOfBounds, outputBound,
      hasMarker_eq_false_iff, dstInBounds_eq_false_iff, Latched.length, hempty, hopen, Nat.sub_sub, ite_or]

theorem payloadDecryptRule_err : (payloadDecryptRule L s).err = firstFailure .payloadDecrypt L s := by
  have hinput : s.memRead L.src.toNat L.len.toNat = s.input L := rfl
  have hparse := parsePayload_err L s.noteRead (input_length s L)
  rw [State.noteRead_cfg, mismatchedPayload_noteRead] at hparse
  simp [payloadDecryptRule, apply_ite State.err, hparse, firstFailure, gated, keyed, readsInput, badLength,
    srcInBounds_eq_false_iff, hinput]

/-- A command's rule reports the first check of R132 that fails. -/
theorem ruleOf_err (i : Instr) : (ruleOf i L s).err = firstFailure i L s := by
  cases i with
  | payloadEncrypt => exact payloadEncryptRule_err L s
  | payloadDecrypt => exact payloadDecryptRule_err L s
  | nop | invalidate => rfl
  | selftest =>
    rw [ruleOf, selftestRule_err, firstFailure_of_ne_payloadDecrypt L s (by decide)]
    cases selftestRun <;> simp [gated, keyed, readsInput, badLength, outputOutOfBounds, outputBound]
  | hash | ecbEncrypt | ecbDecrypt | cbcEncrypt | cbcDecrypt | setPassword =>
    rw [firstFailure_of_ne_payloadDecrypt L s (by decide)]
    simp [ruleOf, hashRule, ecbEncryptRule, ecbDecryptRule, cbcEncryptRule, cbcDecryptRule, setPasswordRule,
      apply_ite State.err, gated, keyed, readsInput, badLength, outputOutOfBounds, outputBound, ceil16,
      Latched.length, srcInBounds_eq_false_iff, dstInBounds_eq_false_iff]

end

end Sys2Proof.Machine

open Sys2Proof Sys2Proof.Machine

/-- Settles O25: an illegal word ends with `illegalCommand`, and a command's rule makes the checks of R132 in their order. -/
theorem reportedErrorIsTheFirstFailingCheck : Obligations.ReportedErrorIsTheFirstFailingCheck := by
  intro s L hL
  rcases engineStep_cases s with ⟨hnone, _⟩ | ⟨M, e, hM, hd, he⟩ | ⟨M, i, hM, hd, hr⟩
  · cases hnone.symm.trans hL
  · cases hM.symm.trans hL
    exact ⟨_, he, by rw [hd]; rfl⟩
  · cases hM.symm.trans hL
    exact ⟨_, hr, by rw [hd]; exact ruleOf_err L s i⟩
end

section
/-! PROOF. What a reset leaves (70_reset_and_hazards.md R141, R142): the fields are the reset values, so STATUS and the
interrupt output, which are made of them, read 0, and the block, with no command latched, waits. -/

namespace Sys2Proof.Machine

namespace State
variable (s : State)

theorem takeReset_statusWord : s.takeReset.statusWord = 0 := by
  simp [statusWord, errorCode, busy_eq_isSome]

theorem takeReset_irq : s.takeReset.irq = false := by
  simp [irq]

/-- Every byte is unwritten (R48, R142). -/
theorem takeReset_read (a : Nat) : s.takeReset.buf.read a = none := rfl

end State

/-! The hardwired registers hold the parameters (R20). -/

theorem readAt_id (s : State) : readAt s 0x000 = 0x54465331 := rfl

theorem readAt_bufSize (s : State) : readAt s 0x004 = BitVec.ofNat 32 s.cfg.bufBytes := rfl

theorem readAt_markerLen (s : State) : readAt s 0x028 = BitVec.ofNat 32 s.cfg.marker.length := by
  rw [Params.marker_length]
  rfl

theorem readAt_stretchRounds (s : State) : readAt s 0x02C = s.cfg.stretchRounds := rfl

/-- With no command latched and no input left, the block waits (R141; log entry 4). -/
theorem step_of_waiting {s : State} (hin : s.inputs = []) (hidle : s.latched = none) : step s = .next s := by
  rw [step_of_engine (.inl hin), popInput_of_nil hin, engineStep_of_idle hidle]

end Sys2Proof.Machine

open Sys2Proof Sys2Proof.Machine

/-- Settles O9: the step is `State.takeReset`, whatever was running, and its result is read off field by field; with no
further input nothing is left to move. -/
theorem resetLeavesTheResetValues : Obligations.ResetLeavesTheResetValues := by
  intro s rest hin
  have hrest : s.popInput.takeReset.inputs = rest := by simp [hin]
  refine ⟨s.popInput.takeReset, step_of_reset hin, rfl, rfl, rfl, rfl, rfl, rfl, State.takeReset_statusWord _,
    rfl, rfl, rfl, rfl, rfl, rfl, rfl, rfl, State.takeReset_irq _, readAt_id _, readAt_bufSize _, readAt_markerLen _,
    readAt_stretchRounds _, State.takeReset_read _, hrest, fun hnil => step_of_waiting (hrest.trans hnil) rfl⟩
end

section
/-! PROOF. What a completed command can leave behind, said once for all eleven (45_selftest_and_control.md R122), and the
invariant of the state: every operation that commands, host accesses and resets are made of keeps it. -/

namespace Sys2Proof.Machine

/-- The checks a PAYLOAD_ENCRYPT of a non-empty plaintext passes before it asks for its token (R113, R132). -/
def TokenAsked (i : Instr) (L : Latched) (s : State) : Prop :=
  i = .payloadEncrypt ∧ L.len ≠ 0 ∧ s.stPass = true ∧ s.keyValid = true ∧
    L.src.toNat + L.len.toNat ≤ s.cfg.bufBytes ∧
    L.dst.toNat + (s.cfg.markerLen + 64 + ceil16 (16 + L.len.toNat)) ≤ s.cfg.bufBytes

/-- The states the completion of a command can end in. An output lies in the buffer and DST_LEN is its length (R49,
R132). -/
inductive Completion (i : Instr) (L : Latched) (s : State) : State → Prop
  | failed {c : ErrCode} : Completion i L s (s.raise c)
  | failedOnInput {c : ErrCode} : Completion i L s (s.noteRead.raise c)
  | unavailable (h : TokenAsked i L s) : Completion i L s (s.noteTrng.raise .randomnessUnavailable)
  | silent : Completion i L s (s.succeed 0)
  | silentOnInput : Completion i L s (s.noteRead.succeed 0)
  | unreadOutput {bs : List Byte} (hfits : L.dst.toNat + bs.length ≤ s.cfg.bufBytes) :
    Completion i L s ((s.memWrite L.dst.toNat bs).succeed bs.length)
  | output {bs : List Byte} (hfits : L.dst.toNat + bs.length ≤ s.cfg.bufBytes) :
    Completion i L s ((s.noteRead.memWrite L.dst.toNat bs).succeed bs.length)
  | sealed {bs : List Byte} (h : TokenAsked i L s) (hfits : L.dst.toNat + bs.length ≤ s.cfg.bufBytes) :
    Completion i L s ((s.noteTrng.noteRead.memWrite L.dst.toNat bs).succeed bs.length)
  | keyStored {v : Key} : Completion i L s ((s.noteRead.setVault v true).succeed 0)
  | keyErased : Completion i L s ((s.setVault zeroVault false).succeed 0)
  | testPassed : Completion i L s ((s.noteSelftest true).succeed 0)
  | testFailed : Completion i L s ((s.noteSelftest false).raise .selftestFailure)

section
variable {i : Instr} {L : Latched} {s : State}

/-- An output of `n` bytes that passes check 8. -/
theorem Completion.of_output {bs : List Byte} {n : Nat} (hlen : bs.length = n)
    (hdst : L.dstInBounds s.cfg n = true) :
    Completion i L s ((s.noteRead.memWrite L.dstOff bs).succeed n) := by
  subst hlen
  exact .output (dstInBounds_iff.mp hdst)

/-- A length other than 0, as a number and as the latched word. -/
theorem Latched.length_ne_zero : L.length ≠ 0 ↔ L.len ≠ 0 := by
  rw [Latched.length, ← BitVec.toNat_ne_iff_ne]
  rfl

theorem Completion.payloadEncryptRule (L : Latched) (s : State) :
    Completion .payloadEncrypt L s (payloadEncryptRule L s) := by
  rcases payloadEncryptRule_cases L s with
    ⟨_, _, h⟩ | ⟨_, _, _, _, hdst, h⟩ | ⟨hp, hk, hsrc, hlen, hdst, _, h⟩ | ⟨hp, hk, hsrc, hlen, hdst, tok, _, h⟩
  · exact h ▸ .failed
  · rw [← Params.marker_length] at hdst h
    exact h ▸ .unreadOutput (dstInBounds_iff.mp hdst)
  all_goals
    have hasked : TokenAsked .payloadEncrypt L s :=
      ⟨rfl, Latched.length_ne_zero.mp hlen, hp, hk, srcInBounds_iff.mp hsrc, dstInBounds_iff.mp hdst⟩
  · exact h ▸ .unavailable hasked
  · have hout : (payloadOf s.cfg.marker s.vaultSchedule (tok.toList ++ s.input L)).length =
        payloadLength s.cfg.markerLen L.length := by
      rw [payloadOf_length, Params.marker_length, input_length]
      rfl
    rw [← hout] at hdst h
    exact h ▸ .sealed hasked (dstInBounds_iff.mp hdst)

/-- The text that PAYLOAD_DECRYPT writes is the part of the decrypted blocks after the token, up to the length that the
padding resolution found (R117). -/
theorem openedText_length {x : List Byte} {d : Digest} {r : Nat} (h : resolvePadding x d = some r) :
    ((x.take r).drop 16).length = r - 16 ∧ r ≤ x.length := by
  have hr : r ≤ x.length := resolveFrom_le x d h
  exact ⟨by simp [hr], hr⟩

theorem Completion.payloadDecryptRule (L : Latched) (s : State) :
    Completion .payloadDecrypt L s (payloadDecryptRule L s) := by
  rcases payloadDecryptRule_cases L s with ⟨_, _, h⟩ | ⟨_, _, _, h⟩
  · exact h ▸ .failed
  rw [h]
  rcases parsePayload_cases L (s.input L) s.noteRead with ⟨_, _, h⟩ | ⟨_, _, _, h⟩ | ⟨_, hlong, hwhole, hdst, h⟩
  · exact h ▸ .failedOnInput
  · exact h ▸ .silentOnInput
  rw [h]
  rcases openPayload_cases L (s.input L) s.noteRead with h | ⟨r, hr, h⟩
  · exact h ▸ .failedOnInput
  obtain ⟨hlen, hle⟩ := openedText_length hr
  rw [h, ← hlen]
  have hbound := dstInBounds_iff.mp hdst
  refine .output ?_
  simp only [cbcDec_length, cipherRegion, List.length_drop, input_length, State.noteRead_cfg, Latched.length] at *
  omega

/-- What a command can do. -/
theorem ruleOf_completion (i : Instr) (L : Latched) (s : State) : Completion i L s (ruleOf i L s) := by
  cases i with
  | nop => exact .silent
  | invalidate => exact .keyErased
  | selftest =>
    rcases selftestRule_cases L s with h | h
    exacts [(show ruleOf .selftest L s = _ from h) ▸ .testPassed, (show ruleOf .selftest L s = _ from h) ▸ .testFailed]
  | hash =>
    rcases hashRule_cases L s with ⟨_, _, h⟩ | ⟨_, _, hdst, h⟩ <;> rw [ruleOf, h]
    exacts [.failed, .of_output (by simp) hdst]
  | ecbEncrypt =>
    rcases ecbEncryptRule_cases L s with ⟨_, _, h⟩ | ⟨_, _, _, _, hdst, h⟩ <;> rw [ruleOf, h]
    exacts [.failed, .of_output (by simp) hdst]
  | ecbDecrypt =>
    rcases ecbDecryptRule_cases L s with ⟨_, _, h⟩ | ⟨_, _, _, _, hdst, h⟩ <;> rw [ruleOf, h]
    exacts [.failed, .of_output (by simp) hdst]
  | cbcEncrypt =>
    rcases cbcEncryptRule_cases L s with ⟨_, _, h⟩ | ⟨_, _, _, hdst, h⟩ <;> rw [ruleOf, h]
    exacts [.failed, .of_output (by rw [cbcEnc_length, input_length]; rfl) hdst]
  | cbcDecrypt =>
    rcases cbcDecryptRule_cases L s with ⟨_, _, h⟩ | ⟨_, _, _, hmod, hdst, h⟩ <;> rw [ruleOf, h]
    · exact .failed
    · refine .of_output ?_ hdst
      rw [cbcDec_length, input_length]
      exact Nat.mul_div_cancel' (Nat.dvd_of_mod_eq_zero hmod)
  | setPassword =>
    rcases setPasswordRule_cases L s with ⟨_, _, h⟩ | ⟨_, _, h⟩ <;> rw [ruleOf, h]
    exacts [.failed, .keyStored]
  | payloadEncrypt => exact .payloadEncryptRule L s
  | payloadDecrypt => exact .payloadDecryptRule L s

end

/-- Where a completion leaves the buffer: as it was, or, where the command succeeds, with its output written (R43, R131). -/
theorem Completion.buffer {i : Instr} {L : Latched} {s t : State} (h : Completion i L s t) :
    t.buf = s.buf ∨ t.err = .ok ∧ ∃ bs : List Byte, L.dst.toNat + bs.length ≤ s.cfg.bufBytes ∧
      t.dstLen = BitVec.ofNat 32 bs.length ∧ t.buf = s.buf.writeBytes L.dst.toNat bs := by
  cases h with
  | unreadOutput hfits | output hfits | sealed _ hfits => exact .inr ⟨rfl, _, hfits, rfl, rfl⟩
  | failed | failedOnInput | unavailable | silent | silentOnInput | keyStored | keyErased | testPassed | testFailed =>
    exact .inl rfl

/-- DST_LEN holds the length of every output that fits into the buffer. -/
theorem toNat_ofNat_of_fits {c : Params} {a n : Nat} (hfits : a + n ≤ c.bufBytes) : (BitVec.ofNat 32 n).toNat = n := by
  have := c.bufBytes_le
  rw [BitVec.toNat_ofNat]
  omega

/-! The invariant, operation by operation. -/

namespace State.Inv

variable {s t : State}

/-- The invariant speaks of eight fields only. -/
theorem congr (h : s.Inv) (hbuf : t.buf = s.buf) (hcfg : t.cfg = s.cfg) (hvault : t.vaultState = s.vaultState)
    (htest : s.SameSelftest t) (herr : t.err = s.err) (hlen : t.dstLen = s.dstLen) : t.Inv := by
  obtain ⟨hvalid, hkey⟩ := vaultState_eq_iff.mp hvault
  obtain ⟨hdone, hpass⟩ := htest
  constructor
  · exact hbuf ▸ h.bufCanonical
  · rw [hbuf, hcfg]
    exact h.bufInRange
  · rw [hvalid, hkey]
    exact h.vaultZeroed
  · rw [hdone, hpass]
    exact h.passedIsDone
  · rw [herr, hlen]
    exact h.errorLength
  · rw [hlen, hcfg]
    exact h.lengthFits

theorem noteRead (h : s.Inv) : s.noteRead.Inv := h.congr rfl rfl rfl ⟨rfl, rfl⟩ rfl rfl

theorem noteTrng (h : s.Inv) : s.noteTrng.Inv := h.congr rfl rfl rfl ⟨rfl, rfl⟩ rfl rfl

theorem popInput (h : s.Inv) : s.popInput.Inv := h.congr rfl rfl rfl ⟨rfl, rfl⟩ rfl rfl

theorem setIgn (h : s.Inv) : s.setIgn.Inv := h.congr rfl rfl rfl ⟨rfl, rfl⟩ rfl rfl

theorem respond (h : s.Inv) (r : Response) : (s.respond r).Inv := h.congr rfl rfl rfl ⟨rfl, rfl⟩ rfl rfl

theorem busFault (h : s.Inv) (a : Access) : (s.busFault a).Inv := h.congr rfl rfl rfl ⟨rfl, rfl⟩ rfl rfl

/-- A write inside the buffer keeps its canonical form and its range (R43, R46). -/
theorem memWrite (h : s.Inv) {a : Nat} {bs : List Byte} (hfits : a + bs.length ≤ s.cfg.bufBytes) :
    (s.memWrite a bs).Inv :=
  ⟨Memory.writeBytes_wf bs a h.bufCanonical, Memory.writeBytes_below bs a _ hfits h.bufInRange, h.vaultZeroed,
    h.passedIsDone, h.errorLength, h.lengthFits⟩

/-- An invalid vault is written as zero (R35). -/
theorem setVault (h : s.Inv) {v : Key} {valid : Bool} (hzero : valid = false → v = zeroVault) :
    (s.setVault v valid).Inv :=
  ⟨h.bufCanonical, h.bufInRange, hzero, h.passedIsDone, h.errorLength, h.lengthFits⟩

/-- The self-test's result is written with ST_DONE set (R36). -/
theorem noteSelftest (h : s.Inv) (ok : Bool) : (s.noteSelftest ok).Inv :=
  ⟨h.bufCanonical, h.bufInRange, h.vaultZeroed, fun _ => rfl, h.errorLength, h.lengthFits⟩

/-- After an error DST_LEN is 0 (R131). -/
theorem raise (h : s.Inv) (c : ErrCode) : (s.raise c).Inv :=
  ⟨h.bufCanonical, h.bufInRange, h.vaultZeroed, h.passedIsDone, fun _ => rfl, Nat.zero_le _⟩

/-- After a success DST_LEN is the output's length. -/
theorem succeed (h : s.Inv) {n : Nat} (hn : n ≤ s.cfg.bufBytes) : (s.succeed n).Inv :=
  ⟨h.bufCanonical, h.bufInRange, h.vaultZeroed, h.passedIsDone, fun herr => absurd rfl herr,
    ((BitVec.toNat_ofNat n 32).trans_le (Nat.mod_le n _)).trans hn⟩

theorem takeReset (s : State) : s.takeReset.Inv :=
  ⟨List.Pairwise.nil, nofun, fun _ => rfl, nofun, fun _ => rfl, Nat.zero_le _⟩

/-- An output inside the buffer, written and reported. -/
theorem output (h : s.Inv) {a : Nat} {bs : List Byte} (hfits : a + bs.length ≤ s.cfg.bufBytes) :
    ((s.memWrite a bs).succeed bs.length).Inv :=
  (h.memWrite hfits).succeed ((Nat.le_add_left _ a).trans hfits)

theorem completion (h : s.Inv) {i : Instr} {L : Latched} (ht : Completion i L s t) : t.Inv := by
  cases ht with
  | failed => exact h.raise _
  | failedOnInput => exact h.noteRead.raise _
  | unavailable => exact h.noteTrng.raise _
  | silent => exact h.succeed (Nat.zero_le _)
  | silentOnInput => exact h.noteRead.succeed (Nat.zero_le _)
  | unreadOutput hfits => exact h.output hfits
  | output hfits => exact h.noteRead.output hfits
  | sealed _ hfits => exact h.noteTrng.noteRead.output hfits
  | keyStored => exact (h.noteRead.setVault (valid := true) nofun).succeed (Nat.zero_le _)
  | keyErased => exact (h.setVault fun _ => rfl).succeed (Nat.zero_le _)
  | testPassed => exact (h.noteSelftest true).succeed (Nat.zero_le _)
  | testFailed => exact (h.noteSelftest false).raise _

theorem engineStep (h : s.Inv) (ht : Machine.engineStep s = .next t) : t.Inv := by
  rcases engineStep_cases s with ⟨_, hw⟩ | ⟨_, _, _, _, he⟩ | ⟨L, i, _, _, hr⟩
  · cases hw.symm.trans ht
    exact h
  · cases he.symm.trans ht
    exact h.raise .illegalCmd
  · cases hr.symm.trans ht
    exact h.completion (ruleOf_completion i L s)

theorem writeAt (h : s.Inv) (v : Word32) (o : Nat) : (writeAt v s o).Inv := by
  rcases writeAt_cases v s o with hw | ⟨_, hw⟩ | ⟨_, hw⟩ | ⟨_, hw⟩ | ⟨_, hw⟩ | ⟨_, hw⟩ | hw | hw <;> rw [hw]
  case inl => exact h
  all_goals exact h.congr rfl rfl rfl ⟨rfl, rfl⟩ rfl rfl

/-- A host access writes the buffer inside its window only (R44). -/
theorem hostAccess (h : s.Inv) (a : Access) : (hostAccess a s).Inv := by
  cases a with
  | read w o =>
    rw [Machine.hostAccess]
    rcases hostRead_cases w o s with ⟨_, hr⟩ | ⟨_, _, _, hr⟩ | ⟨_, _, _, hr⟩ | ⟨_, _, hr⟩ <;> rw [hr]
    exacts [h.respond _, h.setIgn.respond _, h.noteRead.respond _, h.busFault _]
  | write w o v =>
    rw [Machine.hostAccess]
    rcases hostWrite_cases w o v s with ⟨_, hw⟩ | ⟨_, _, _, hw⟩ | ⟨_, hlegal, _, hw⟩ | ⟨_, _, hw⟩ <;> rw [hw]
    · exact (h.writeAt v _).respond _
    · exact h.setIgn.respond _
    · obtain ⟨_, hbase, _, hend⟩ := legalBufferAccess_iff.mp hlegal
      refine (h.memWrite ?_).respond _
      rw [leBytes_length, bufBase]
      omega
    · exact h.busFault _

end State.Inv

end Sys2Proof.Machine

open Sys2Proof Sys2Proof.Machine

/-- Settles O8: every clause is about the reset values (R142). -/
theorem resetMeetsTheInvariant : Obligations.ResetMeetsTheInvariant :=
  State.Inv.takeReset State.reset

/-- Settles O7: a step is a host access, a reset or the Engine's step, and each keeps the invariant because the operations it
is made of do. -/
theorem invariantKeptByEveryStep : Obligations.InvariantKeptByEveryStep := by
  intro s t h hstep
  rcases step_cases hstep with ⟨a, _, _, rfl⟩ | ⟨_, _, rfl⟩ | ⟨_, he⟩
  · exact h.popInput.hostAccess a
  · exact State.Inv.takeReset _
  · exact h.popInput.engineStep he


/-- Settles O26: the buffer is as before or has the command's output written into it, and then DST_LEN is the output's
length. -/
theorem outputStaysInItsRange : Obligations.OutputStaysInItsRange := by
  intro s t L i hL h
  cases (exec_of_latched hL).symm.trans h
  rcases (ruleOf_completion i L s).buffer with hsame | ⟨hok, bs, hfits, hlen, hbuf⟩
  · exact ⟨fun a _ => by rw [hsame], fun _ => hsame⟩
  · refine ⟨fun a hout => ?_, fun herr => absurd hok herr⟩
    rw [hlen, toNat_ofNat_of_fits hfits] at hout
    rw [hbuf, Memory.read_writeBytes_outside _ _ _ _ hout]
end

section
/-! PROOF. The command word (30_encoding.md R57 to R59): RSV above OPC, so a word with RSV 0 is the word of its opcode. -/

namespace Sys2Proof.Machine

/-- A command word is its two fields, RSV above OPC (R57). -/
theorem commandFields_append (w : Word32) : (commandFields w).rsv ++ (commandFields w).opc = w :=
  (BitVec.extractLsb'_append_extractLsb'_eq_extractLsb' rfl).trans BitVec.extractLsb'_eq_self

/-- A word is a command's exactly where RSV is 0 and OPC is the command's (R57, R58). -/
theorem decode_eq_ok_iff {w : Word32} {i : Instr} :
    decode w = .ok i ↔ (commandFields w).rsv = 0 ∧ (commandFields w).opc = opcode i := by
  by_cases hrsv : (commandFields w).rsv = 0
  · rw [decode_of_rsv_eq_zero hrsv, ← decodeOpcode_eq_some]
    cases decodeOpcode (commandFields w).opc <;> simp [hrsv]
  · rw [decode_of_rsv_ne_zero hrsv]
    exact ⟨nofun, fun ⟨hzero, _⟩ => absurd hzero hrsv⟩

/-- The fields of a command's word (R57). -/
theorem commandFields_encode (i : Instr) : commandFields (encode i) = { rsv := 0, opc := opcode i } := by
  cases i <;> decide

end Sys2Proof.Machine

open Sys2Proof Sys2Proof.Machine

/-- Settles O2: the decoder reads both fields, and the two fields are the whole word. -/
theorem legalWordIsTheWordOfItsCommand : Obligations.LegalWordIsTheWordOfItsCommand := by
  intro w i h
  obtain ⟨hrsv, hopc⟩ := decode_eq_ok_iff.mp h
  rw [← commandFields_append w, hrsv, hopc, encode]

/-- Settles O1: a command's word has RSV 0 and the command's opcode. -/
theorem decodeOfEncodeIsTheCommand : Obligations.DecodeOfEncodeIsTheCommand := by
  intro i _
  rw [decode_eq_ok_iff, commandFields_encode]
  exact ⟨rfl, rfl⟩

/-- Settles O4: four words with RSV 0 and an assigned opcode, one with bit 8 set, and one with the opcode 0xFF, which no
command has. -/
theorem sampleWordsDecodeAsTheTableSays : Obligations.SampleWordsDecodeAsTheTableSays := by
  refine ⟨?_, ?_, ?_, ?_, decode_of_rsv_ne_zero (by decide), ?unassigned⟩
  case unassigned =>
    rw [decode_of_rsv_eq_zero (by decide), decodeOpcode_eq_none.mpr (by decide)]
    rfl
  all_goals exact decode_eq_ok_iff.mpr (by decide)
end

section
/-! PROOF. The step (00_scope.md R9, 45_selftest_and_control.md R122): which agent moves, that a next state always comes, and
what neither the host nor the Engine touches. -/

namespace Sys2Proof.Machine

theorem popInput_of_cons {s : State} {e : Event} {rest : List Event} (h : s.inputs = e :: rest) :
    s.popInput = { s with inputs := rest } := by
  rw [State.popInput, h, List.tail_cons]

/-- The Engine's step on a latched command is the command's meaning (R122). -/
theorem engineStep_of_command {s : State} {L : Latched} {i : Instr} (hL : s.latched = some L)
    (hd : decode L.cmd = .ok i) : engineStep s = exec i s := by
  simp only [engineStep, hL, hd]

theorem engineStep_answers (s : State) : ∃ t, engineStep s = .next t := by
  rcases engineStep_cases s with ⟨_, h⟩ | ⟨_, _, _, _, h⟩ | ⟨_, _, _, _, h⟩ <;> exact ⟨_, h⟩

/-- The part of the state no host access writes: the parameters, the result of the last command, the vault's `valid` bit, the
self-test state (R24, R27), and the inputs to come. -/
def State.unwrittenByHost (s : State) : Params × ErrCode × Word32 × Bool × Bool × Bool × List Event :=
  (s.cfg, s.err, s.dstLen, s.keyValid, s.stDone, s.stPass, s.inputs)

theorem writeAt_unwrittenByHost (v : Word32) (s : State) (o : Nat) :
    (writeAt v s o).unwrittenByHost = s.unwrittenByHost := by
  rcases writeAt_cases v s o with h | ⟨_, h⟩ | ⟨_, h⟩ | ⟨_, h⟩ | ⟨_, h⟩ | ⟨_, h⟩ | h | h <;> rw [h] <;> rfl

theorem hostAccess_unwrittenByHost (a : Access) (s : State) :
    (hostAccess a s).unwrittenByHost = s.unwrittenByHost := by
  cases a with
  | read w o =>
    rcases hostRead_cases w o s with ⟨_, h⟩ | ⟨_, _, _, h⟩ | ⟨_, _, _, h⟩ | ⟨_, _, h⟩ <;> rw [hostAccess, h] <;> rfl
  | write w o v =>
    rcases hostWrite_cases w o v s with ⟨_, h⟩ | ⟨_, _, _, h⟩ | ⟨_, _, _, h⟩ | ⟨_, _, h⟩
    · rw [hostAccess, h]
      exact writeAt_unwrittenByHost v s o.toNat
    all_goals rw [hostAccess, h]; rfl

theorem cfg_kept : KeptByCommands State.cfg where
  complete _ _ _ := rfl
  noteRead _ := rfl
  memWrite _ _ _ := rfl
  noteTrng _ := rfl
  noteSelftest _ _ := rfl
  setVault _ _ _ := rfl

/-- What only the host writes: the operand registers, IGN and the interrupt enables, with the parameters, the inputs and
the host's record (R122). -/
def State.hostSide (s : State) :
    Word32 × Word32 × Word32 × Bool × Bool × Bool × Params × List Event × Option Response × List Access :=
  (s.srcAddr, s.srcLen, s.dstAddr, s.intIgn, s.doneIe, s.ignIe, s.cfg, s.inputs, s.response, s.busErrors)

theorem hostSide_kept : KeptByCommands State.hostSide where
  complete _ _ _ := rfl
  noteRead _ := rfl
  memWrite _ _ _ := rfl
  noteTrng _ := rfl
  noteSelftest _ _ := rfl
  setVault _ _ _ := rfl

/-- Every command's last operation is its completion, which discards the latched command (R122). -/
theorem Completion.latched {i : Instr} {L : Latched} {s t : State} (h : Completion i L s t) : t.latched = none := by
  cases h <;> rfl

end Sys2Proof.Machine

open Sys2Proof Sys2Proof.Machine

/-- Settles O5: the input says who moves, and the Engine's step runs the word it has latched. -/
theorem stepRunsTheLatchedCommand : Obligations.StepRunsTheLatchedCommand := by
  intro s
  have hhost (a : Access) (rest : List Event) (hin : s.inputs = .host a :: rest) :
      step s = .next (hostAccess a { s with inputs := rest }) := by
    rw [step_of_host hin, popInput_of_cons hin]
  have hengine (rest : List Event) (hin : s.inputs = .engine :: rest) :
      step s = engineStep { s with inputs := rest } := by
    rw [step_of_engine (.inr ⟨rest, hin⟩), popInput_of_cons hin]
  have hnil (hin : s.inputs = []) : step s = engineStep s := by
    rw [step_of_engine (.inl hin), popInput_of_nil hin]
  refine ⟨hhost, fun w o => hhost (.read w o), fun w o v => hhost (.write w o v), hengine, hnil, engineStep_of_idle,
    fun L i hL hd => ⟨engineStep_of_command hL hd, fun rest hin => ?_, fun hin => ?_⟩⟩
  · exact (hengine rest hin).trans (engineStep_of_command hL hd)
  · exact (hnil hin).trans (engineStep_of_command hL hd)

/-- Settles O6: a host access and a reset answer the state they make, and the Engine's step always answers one. -/
theorem everyStepAnswersANextState : Obligations.EveryStepAnswersANextState := by
  intro s
  match hin : s.inputs with
  | .host _ :: _ => exact ⟨_, step_of_host hin⟩
  | .reset :: _ => exact ⟨_, step_of_reset hin⟩
  | .engine :: rest => exact step_of_engine (.inr ⟨rest, hin⟩) ▸ engineStep_answers s.popInput
  | [] => exact step_of_engine (.inl hin) ▸ engineStep_answers s.popInput

/-- Settles O10: neither a host access nor a reset nor a command writes the parameters. -/
theorem noStepChangesTheParameters : Obligations.NoStepChangesTheParameters := by
  intro s t h
  rcases step_cases h with ⟨a, _, _, rfl⟩ | ⟨_, _, rfl⟩ | ⟨_, he⟩
  · exact congrArg Prod.fst (hostAccess_unwrittenByHost a s.popInput)
  · rfl
  · exact cfg_kept.engineStep (s := s.popInput) he

/-- Settles O23: a latched command is its rule, which ends with its completion and touches nothing the host writes. -/
theorem completionHasTheCommonEffects : Obligations.CompletionHasTheCommonEffects := by
  intro s L i hL
  have hidle : (ruleOf i L s).latched = none := (ruleOf_completion i L s).latched
  have hkept : (ruleOf i L s).hostSide = s.hostSide := hostSide_kept.ruleOf i L s
  simp only [State.hostSide, Prod.mk.injEq] at hkept
  obtain ⟨hsrc, hlen, hdst, hign, hde, hie, hcfg, hin, hresp, herrs⟩ := hkept
  exact ⟨_, exec_of_latched hL, hidle, by rw [State.busy_eq_isSome, hidle]; rfl, ruleOf_intDone i L s, hsrc, hlen, hdst,
    hign, hde, hie, hcfg, hin, hresp, herrs⟩
end

section
/-! PROOF. The registers that a host reads and writes (10_state.md R20 to R31), and what a host access does to STATUS and to
the interrupt output (10_state.md R24, 60_exceptions.md R134). -/

namespace Sys2Proof.Machine

/-- Fields side by side in a word, as numbers. -/
theorem toNat_append_eq_add {m n : Nat} (x : BitVec m) (y : BitVec n) :
    (x ++ y).toNat = 2 ^ n * x.toNat + y.toNat := by
  rw [BitVec.toNat_append, ← Nat.shiftLeft_add_eq_or_of_lt y.isLt, Nat.shiftLeft_eq, Nat.mul_comm]

theorem bufBytes_lt (c : Params) : c.bufBytes < 2 ^ 32 := c.bufBytes_le.trans_lt (by decide)

theorem markerLen_lt (c : Params) : c.markerLen < 2 ^ 32 := c.markerLen_le.trans_lt (by decide)

theorem statusWord_toNat (s : State) :
    s.statusWord.toNat = s.latched.isSome.toNat + 2 * s.keyValid.toNat + 4 * s.stDone.toNat + 8 * s.stPass.toNat +
      256 * (errorCode s.err).toNat := by
  simp only [State.statusWord, State.busy_eq_isSome, toNat_append_eq_add, BitVec.toNat_ofBool, BitVec.ofNat_eq_ofNat,
    BitVec.toNat_zero]
  omega

theorem intStatusWord_toNat (s : State) : s.intStatusWord.toNat = s.intDone.toNat + 2 * s.intIgn.toNat := by
  simp only [State.intStatusWord, toNat_append_eq_add, BitVec.toNat_ofBool, BitVec.ofNat_eq_ofNat,
    BitVec.toNat_zero]
  omega

theorem intEnableWord_toNat (s : State) : s.intEnableWord.toNat = s.doneIe.toNat + 2 * s.ignIe.toNat := by
  simp only [State.intEnableWord, toNat_append_eq_add, BitVec.toNat_ofBool, BitVec.ofNat_eq_ofNat,
    BitVec.toNat_zero]
  omega

/-- STATUS is made of what no host access writes, and of BUSY (R24). -/
theorem statusWord_congr {s t : State} (hkept : t.unwrittenByHost = s.unwrittenByHost) (hbusy : t.busy = s.busy) :
    t.statusWord = s.statusWord := by
  simp only [State.unwrittenByHost, Prod.mk.injEq] at hkept
  obtain ⟨_, herr, _, hvalid, hdone, hpass, _⟩ := hkept
  rw [State.statusWord, herr, hvalid, hdone, hpass, hbusy, State.statusWord]

/-- Where BUSY is all that changes, it is bit 0 (R24). -/
theorem statusWord_of_issued {s t : State} (hkept : t.unwrittenByHost = s.unwrittenByHost) (hidle : s.busy = false)
    (hbusy : t.busy = true) : t.statusWord = s.statusWord ||| 1 := by
  have hbit : (1 : Word32) = (0 : BitVec 31) ++ BitVec.ofBool true := by decide
  simp only [State.unwrittenByHost, Prod.mk.injEq] at hkept
  obtain ⟨_, herr, _, hvalid, hdone, hpass, _⟩ := hkept
  rw [State.statusWord, herr, hvalid, hdone, hpass, hbusy, State.statusWord, hidle, hbit]
  exact (BitVec.or_append.trans (by simp)).symm

/-- A write to any register but CMD leaves the sequencer as it is (R25, R33). -/
theorem writeRegister_latched {r : HostReg} (hr : r ≠ .cmd) (v : Word32) (s : State) :
    (writeRegister v s r).latched = s.latched := by
  cases r with
  | cmd => exact absurd rfl hr
  | srcAddr | srcLen | dstAddr => rw [writeRegister, apply_ite State.latched]; exact ite_self _
  | id | bufSize | status | dstLen | intStatus | intEnable | markerLen | stretchRounds => rfl

theorem writeAt_latched {o : Nat} (ho : o ≠ 0x00C) (v : Word32) (s : State) : (writeAt v s o).latched = s.latched := by
  unfold writeAt
  cases hr : registerAt o with
  | none => rfl
  | some r =>
    have hne : r ≠ .cmd := fun h => ho ((registerAt_eq_some.mp hr).trans (h ▸ rfl))
    exact writeRegister_latched hne v s

/-- A host access changes BUSY only by issuing a command (R121). -/
theorem hostAccess_busy (a : Access) (s : State) :
    (hostAccess a s).busy = s.busy ∨
    ∃ v, a = .write 4 0x00C v ∧ s.busy = false ∧ (hostAccess a s).busy = true := by
  cases a with
  | read w o =>
    left
    rcases hostRead_cases w o s with ⟨_, h⟩ | ⟨_, _, _, h⟩ | ⟨_, _, _, h⟩ | ⟨_, _, h⟩ <;> rw [hostAccess, h] <;> rfl
  | write w o v =>
    rcases hostWrite_cases w o v s with ⟨hlegal, h⟩ | ⟨_, _, _, h⟩ | ⟨_, _, _, h⟩ | ⟨_, _, h⟩ <;> rw [hostAccess, h]
    case inl =>
      obtain ⟨_, rfl, _⟩ := legalRegisterAccess_iff.mp hlegal
      by_cases ho : o.toNat = 0x00C
      · obtain rfl : o = 0x00C := BitVec.eq_of_toNat_eq ho
        cases hb : s.busy
        · exact .inr ⟨v, rfl, rfl, by rw [ho, writeAt_cmd_of_idle hb]; rfl⟩
        · exact .inl (by rw [writeAt_of_busy (by decide) hb]; exact hb)
      · exact .inl (congrArg Option.isSome (writeAt_latched ho v s))
    all_goals exact .inl rfl

theorem irq_eq_true_iff {s : State} :
    s.irq = true ↔ (s.intDone = true ∧ s.doneIe = true) ∨ (s.intIgn = true ∧ s.ignIe = true) := by
  simp [State.irq]

theorem irq_setIgn {s : State} (h : s.irq = true) : s.setIgn.irq = true :=
  irq_eq_true_iff.mpr ((irq_eq_true_iff.mp h).imp_right fun ⟨_, hie⟩ => ⟨rfl, hie⟩)

/-- A write to any register but INT_STATUS and INT_ENABLE leaves a pending interrupt (R28, R29). -/
theorem writeRegister_irq {r : HostReg} (hstatus : r ≠ .intStatus) (henable : r ≠ .intEnable) (v : Word32) {s : State}
    (h : s.irq = true) : (writeRegister v s r).irq = true := by
  cases r with
  | intStatus => exact absurd rfl hstatus
  | intEnable => exact absurd rfl henable
  | cmd | srcAddr | srcLen | dstAddr =>
    rw [writeRegister]
    split
    exacts [irq_setIgn h, h]
  | id | bufSize | status | dstLen | markerLen | stretchRounds => exact h

theorem writeAt_irq {o : Nat} (hstatus : o ≠ 0x020) (henable : o ≠ 0x024) (v : Word32) {s : State}
    (h : s.irq = true) : (writeAt v s o).irq = true := by
  unfold writeAt
  cases hr : registerAt o with
  | none => exact h
  | some r =>
    have ho : o = r.offset := registerAt_eq_some.mp hr
    have hne1 : r ≠ .intStatus := fun hr => hstatus (ho.trans (hr ▸ rfl))
    have hne2 : r ≠ .intEnable := fun hr => henable (ho.trans (hr ▸ rfl))
    exact writeRegister_irq hne1 hne2 v h

/-- The only host accesses that take the interrupt output away (R134, R147). -/
theorem hostAccess_irq {a : Access} {s : State} (h : s.irq = true) :
    (hostAccess a s).irq = true ∨ ∃ o v, a = .write 4 o v ∧ (o = 0x020 ∨ o = 0x024) := by
  cases a with
  | read w o =>
    left
    rcases hostRead_cases w o s with ⟨_, hr⟩ | ⟨_, _, _, hr⟩ | ⟨_, _, _, hr⟩ | ⟨_, _, hr⟩ <;> rw [hostAccess, hr]
    exacts [h, irq_setIgn (s := s) h, h, h]
  | write w o v =>
    rcases hostWrite_cases w o v s with ⟨hlegal, hw⟩ | ⟨_, _, _, hw⟩ | ⟨_, _, _, hw⟩ | ⟨_, _, hw⟩ <;>
      rw [hostAccess, hw]
    case inl =>
      obtain ⟨_, rfl, _⟩ := legalRegisterAccess_iff.mp hlegal
      by_cases hstatus : o.toNat = 0x020
      · exact .inr ⟨o, v, rfl, .inl (BitVec.eq_of_toNat_eq hstatus)⟩
      by_cases henable : o.toNat = 0x024
      · exact .inr ⟨o, v, rfl, .inr (BitVec.eq_of_toNat_eq henable)⟩
      · exact .inl (writeAt_irq hstatus henable v h)
    exacts [.inl (irq_setIgn (s := s) h), .inl h, .inl h]

/-- The Engine's step never takes the interrupt output away: a completion makes DONE pending and keeps IGN and the
enables. -/
theorem engineStep_irq {s t : State} (h : s.irq = true) (ht : engineStep s = .next t) : t.irq = true := by
  cases hL : s.latched with
  | none =>
    cases (engineStep_of_idle hL).symm.trans ht
    exact h
  | some L =>
    obtain ⟨u, hu, hdone⟩ := engineStep_intDone hL
    cases hu.symm.trans ht
    rw [irq_of_intDone hdone (irqRest_kept.engineStep ht), Bool.or_eq_true, Bool.and_eq_true]
    exact (irq_eq_true_iff.mp h).imp_left And.right

/-- The state with the vault's contents replaced (R34). -/
def State.withVault (v : Key) (s : State) : State := { s with vault := v }

theorem readAt_withVault (v : Key) (s : State) (o : Nat) : readAt (s.withVault v) o = readAt s o := by
  unfold readAt
  cases registerAt o with
  | none => rfl
  | some r => cases r <;> rfl

theorem writeRegister_withVault (x : Word32) (v : Key) (s : State) (r : HostReg) :
    writeRegister x (s.withVault v) r = (writeRegister x s r).withVault v := by
  cases r with
  | cmd | srcAddr | srcLen | dstAddr =>
    rw [writeRegister, writeRegister, apply_ite (State.withVault v)]
    rfl
  | id | bufSize | status | dstLen | intStatus | intEnable | markerLen | stretchRounds => rfl

theorem writeAt_withVault (x : Word32) (v : Key) (s : State) (o : Nat) :
    writeAt x (s.withVault v) o = (writeAt x s o).withVault v := by
  unfold writeAt
  cases registerAt o with
  | none => rfl
  | some r => exact writeRegister_withVault x v s r

/-- Every branch of a host access does with the vault replaced what it does without (R34). -/
theorem hostAccess_withVault (a : Access) (v : Key) (s : State) :
    hostAccess a (s.withVault v) = (hostAccess a s).withVault v := by
  cases a with
  | read w o =>
    simp only [hostAccess, hostRead, apply_ite (State.withVault v), readAt_withVault]
    rfl
  | write w o x =>
    simp only [hostAccess, hostWrite, apply_ite (State.withVault v), writeAt_withVault]
    rfl

end Sys2Proof.Machine

open Sys2Proof Sys2Proof.Machine

/-- Settles O19: of the host's accesses only the two writes take the output away, and of the other steps only a reset. -/
theorem interruptStaysUntilClearedOrMasked : Obligations.InterruptStaysUntilClearedOrMasked := by
  intro s t h hpending hfell
  rcases step_cases h with ⟨a, rest, hin, rfl⟩ | ⟨rest, hin, rfl⟩ | ⟨_, he⟩
  · rcases hostAccess_irq (s := s.popInput) (a := a) hpending with hstays | ⟨o, v, rfl, ho⟩
    · exact absurd hfell (by simp [hstays])
    · exact .inr ⟨o, v, rest, hin, ho⟩
  · exact .inl ⟨rest, hin⟩
  · exact absurd hfell (by simp [engineStep_irq (s := s.popInput) hpending he])

/-- Settles O20: a host access writes none of the fields STATUS shows but BUSY, and BUSY only by an issue. -/
theorem hostAccessesChangeOnlyBusyOfStatus : Obligations.HostAccessesChangeOnlyBusyOfStatus := by
  intro s t a rest hin h
  cases (step_of_host hin).symm.trans h
  have hkept := hostAccess_unwrittenByHost a s.popInput
  rcases hostAccess_busy a s.popInput with hbusy | ⟨v, ha, hidle, hissued⟩
  · exact .inl (statusWord_congr (s := s.popInput) hkept hbusy)
  · exact .inr ⟨v, ha, hidle, statusWord_of_issued (s := s.popInput) hkept hidle hissued⟩

/-- Settles O21: the vault's contents stand in no branch of a host access and in no response. -/
theorem hostAccessesNeitherSeeNorChangeTheVault : Obligations.HostAccessesNeitherSeeNorChangeTheVault :=
  fun s a v => hostAccess_withVault a v s

/-- Settles O15: an idle write of an operand register stores its value, a read is `readAt`, and the operand registers are
on the host's side of the state. -/
theorem operandRegistersHoldWhatIsWritten : Obligations.OperandRegistersHoldWhatIsWritten := by
  refine ⟨fun s v hidle => ?write, fun s => ?read, fun s t h => ?engine⟩
  case write =>
    have hnot : ¬ s.busy = true := by simp [hidle]
    refine ⟨?_, ?_, ?_⟩ <;> rw [hostWrite_of_aligned (by decide) (by decide)] <;>
      exact congrArg (State.respond · .done) (if_neg hnot)
  case read => refine ⟨?_, ?_, ?_⟩ <;> exact hostRead_of_aligned (by decide) (by decide) s
  case engine =>
    have hkept : t.hostSide = s.hostSide := hostSide_kept.engineStep h
    simp only [State.hostSide, Prod.mk.injEq] at hkept
    obtain ⟨hsrc, hlen, hdst, _⟩ := hkept
    exact ⟨hsrc, hlen, hdst⟩

/-- Settles O17: the fields of the three words as numbers, and the parameters, which fit into 32 bits. -/
theorem registersReadAsTheMapSays : Obligations.RegistersReadAsTheMapSays := by
  intro s
  refine ⟨fun o hle hal => hostRead_of_aligned hle hal s, readAt_id s, ?bufSize, rfl, ?markerLen,
    readAt_stretchRounds s, ?status, intStatusWord_toNat s, intEnableWord_toNat s⟩
  case bufSize => rw [readAt_bufSize, BitVec.toNat_ofNat, Nat.mod_eq_of_lt (bufBytes_lt _)]
  case markerLen => rw [readAt_markerLen, BitVec.toNat_ofNat, Params.marker_length, Nat.mod_eq_of_lt (markerLen_lt _)]
  case status =>
    rw [readAt_status, statusWord_toNat]
    cases s.err <;> rfl

/-- Settles O18: the two writes are `clearIntStatus` and `setIntEnable`, which do not look at BUSY. -/
theorem interruptRegistersWriteAsTheMapSays : Obligations.InterruptRegistersWriteAsTheMapSays := by
  intro s v
  have hclear (pending written : Bool) : (if written = true then false else pending) = (pending && !written) := by
    cases written <;> simp
  rw [hclear, hclear]
  exact ⟨hostWrite_of_aligned (by decide) (by decide) v s, hostWrite_of_aligned (by decide) (by decide) v s⟩
end

section
/-! PROOF. A host's accesses while a command runs (70_reset_and_hazards.md R145, 20_memory.md R52): they change nothing of
what the Engine's step reads or writes. -/

namespace Sys2Proof.Machine

/-- What the Engine's step reads and writes: the state with the inputs, the host's record, IGN and the enables cleared, and
with DONE set, as every completion sets it. -/
def State.engineView (s : State) : State :=
  { s with
    inputs := [], response := none, busErrors := [], intDone := true, intIgn := false, doneIe := false, ignIe := false }

namespace State
variable (s : State)

@[simp] theorem engineView_stPass : s.engineView.stPass = s.stPass := rfl
@[simp] theorem engineView_keyValid : s.engineView.keyValid = s.keyValid := rfl
@[simp] theorem engineView_cfg : s.engineView.cfg = s.cfg := rfl
@[simp] theorem engineView_vaultSchedule : s.engineView.vaultSchedule = s.vaultSchedule := rfl
@[simp] theorem engineView_trngAnswer : s.engineView.trngAnswer = s.trngAnswer := rfl
@[simp] theorem engineView_memRead (a n : Nat) : s.engineView.memRead a n = s.memRead a n := rfl
@[simp] theorem engineView_input (L : Latched) : s.engineView.input L = s.input L := rfl

@[simp] theorem raise_engineView (c : ErrCode) : s.engineView.raise c = (s.raise c).engineView := rfl
@[simp] theorem succeed_engineView (n : Nat) : s.engineView.succeed n = (s.succeed n).engineView := rfl
@[simp] theorem noteRead_engineView : s.engineView.noteRead = s.noteRead.engineView := rfl
@[simp] theorem noteTrng_engineView : s.engineView.noteTrng = s.noteTrng.engineView := rfl
@[simp] theorem memWrite_engineView (a : Nat) (bs : List Byte) :
    s.engineView.memWrite a bs = (s.memWrite a bs).engineView := rfl
@[simp] theorem setVault_engineView (v : Key) (valid : Bool) :
    s.engineView.setVault v valid = (s.setVault v valid).engineView := rfl
@[simp] theorem noteSelftest_engineView (ok : Bool) :
    s.engineView.noteSelftest ok = (s.noteSelftest ok).engineView := rfl

end State

section
variable (L : Latched) (s : State)

@[simp] theorem sealPayload_engineView : sealPayload L s.engineView = (sealPayload L s).engineView := by
  unfold sealPayload
  cases h : s.trngAnswer <;> simp [h]

@[simp] theorem openPayload_engineView (p : List Byte) :
    openPayload L p s.engineView = (openPayload L p s).engineView := by
  simp only [openPayload, State.engineView_vaultSchedule, State.engineView_cfg]
  split <;> simp

@[simp] theorem parsePayload_engineView (p : List Byte) :
    parsePayload L p s.engineView = (parsePayload L p s).engineView := by
  simp [parsePayload, apply_ite State.engineView]

/-- A command neither reads nor writes what the view leaves out, and it sets DONE. -/
theorem ruleOf_engineView (i : Instr) : ruleOf i L s.engineView = (ruleOf i L s).engineView := by
  cases i with
  | nop => simp [ruleOf, nopRule]
  | hash => simp [ruleOf, hashRule, apply_ite State.engineView]
  | ecbEncrypt => simp [ruleOf, ecbEncryptRule, apply_ite State.engineView]
  | ecbDecrypt => simp [ruleOf, ecbDecryptRule, apply_ite State.engineView]
  | cbcEncrypt => simp [ruleOf, cbcEncryptRule, apply_ite State.engineView]
  | cbcDecrypt => simp [ruleOf, cbcDecryptRule, apply_ite State.engineView]
  | setPassword => simp [ruleOf, setPasswordRule, apply_ite State.engineView]
  | invalidate => simp [ruleOf, invalidateRule]
  | payloadEncrypt => simp [ruleOf, payloadEncryptRule, apply_ite State.engineView]
  | payloadDecrypt => simp [ruleOf, payloadDecryptRule, apply_ite State.engineView]
  | selftest => simp [ruleOf, selftestRule, apply_ite State.engineView]

end

/-- So states with the same view complete their command alike. -/
theorem engineStep_engineView {s t : State} (h : engineStep s = .next t) :
    engineStep s.engineView = .next t.engineView := by
  rcases engineStep_cases s with ⟨hL, hw⟩ | ⟨L, e, hL, hd, he⟩ | ⟨L, i, hL, hd, hr⟩
  · cases hw.symm.trans h
    exact engineStep_of_idle hL
  · cases he.symm.trans h
    exact engineStep_of_illegal (s := s.engineView) hL hd
  · cases hr.symm.trans h
    rw [engineStep_of_command (s := s.engineView) hL hd, exec_of_latched (s := s.engineView) hL, ruleOf_engineView]

theorem writeAt_engineView {s : State} (hb : s.busy = true) (v : Word32) (o : Nat) :
    (writeAt v s o).engineView = s.engineView := by
  have hnot : s.busy ≠ false := by simp [hb]
  rcases writeAt_cases v s o with h | ⟨_, h⟩ | ⟨hidle, _⟩ | ⟨hidle, _⟩ | ⟨hidle, _⟩ | ⟨hidle, _⟩ | h | h
  case inr.inr.inl | inr.inr.inr.inl | inr.inr.inr.inr.inl | inr.inr.inr.inr.inr.inl => exact absurd hidle hnot
  all_goals exact (congrArg State.engineView h :)

/-- While BUSY a host access reaches IGN, the enables, the pending bits and the host's record only (R47, R53). -/
theorem hostAccess_engineView {s : State} (hb : s.busy = true) (a : Access) :
    (hostAccess a s).engineView = s.engineView := by
  have hnot : s.busy ≠ false := by simp [hb]
  cases a with
  | read w o =>
    rcases hostRead_cases w o s with ⟨_, h⟩ | ⟨_, _, _, h⟩ | ⟨_, _, hidle, _⟩ | ⟨_, _, h⟩
    case inr.inr.inl => exact absurd hidle hnot
    all_goals rw [hostAccess, h]; rfl
  | write w o v =>
    rcases hostWrite_cases w o v s with ⟨_, h⟩ | ⟨_, _, _, h⟩ | ⟨_, _, hidle, _⟩ | ⟨_, _, h⟩
    case inl =>
      rw [hostAccess, h]
      exact writeAt_engineView hb v o.toNat
    case inr.inr.inl => exact absurd hidle hnot
    all_goals rw [hostAccess, h]; rfl

theorem run_succ_of_next {M : Host.Core} {s t : M.State} (h : M.step s = .next t) (n : Nat) :
    M.run (n + 1) s = M.run n t := by
  rw [Host.Core.run, h]

/-- A run of host accesses and then the Engine's step is the Engine's step from a state with the same view. -/
theorem run_hostEvents {as : List Access} {s : State} (hb : s.busy = true)
    (hin : s.inputs = hostEvents as ++ [.engine]) :
    ∃ s' : State, s'.engineView = s.engineView ∧ Sys2Proof.core.run (as.length + 1) s = engineStep s' := by
  induction as generalizing s with
  | nil =>
    obtain ⟨t, ht⟩ := engineStep_answers s.popInput
    have hstep : step s = .next t := (step_of_engine (.inr ⟨[], hin⟩)).trans ht
    exact ⟨s.popInput, rfl, (run_succ_of_next (M := Sys2Proof.core) hstep 0).trans ht.symm⟩
  | cons a as ih =>
    have hin' : s.inputs = .host a :: (hostEvents as ++ [.engine]) := hin
    have hview : (hostAccess a s.popInput).engineView = s.engineView := hostAccess_engineView (s := s.popInput) hb a
    have hbusy : (hostAccess a s.popInput).busy = true := (congrArg State.busy hview).trans hb
    have hkept := hostAccess_unwrittenByHost a s.popInput
    simp only [State.unwrittenByHost, Prod.mk.injEq] at hkept
    obtain ⟨_, _, _, _, _, _, hrest⟩ := hkept
    obtain ⟨s', hs', hrun⟩ := ih hbusy (by rw [hrest, State.popInput_inputs, hin', List.tail_cons])
    exact ⟨s', hs'.trans hview, (run_succ_of_next (M := Sys2Proof.core) (step_of_host hin') _).trans hrun⟩

end Sys2Proof.Machine

open Sys2Proof Sys2Proof.Machine

/-- Settles O22: the accesses keep what the Engine's step reads, so it ends alike; DONE it sets in any case. -/
theorem hostAccessesWhileBusyDoNotAffectTheCommand : Obligations.HostAccessesWhileBusyDoNotAffectTheCommand := by
  intro s L as hL hin
  have hb : s.busy = true := by rw [State.busy_eq_isSome, hL]; rfl
  obtain ⟨s', hs', hrun⟩ := run_hostEvents hb hin
  have hL' : s'.latched = some L := (congrArg State.latched hs').trans hL
  obtain ⟨t, ht, htdone⟩ := engineStep_intDone hL'
  obtain ⟨u, hu, hudone⟩ := engineStep_intDone hL
  have hviews : t.engineView = u.engineView := by
    have hsame := (engineStep_engineView ht).symm.trans ((congrArg engineStep hs').trans (engineStep_engineView hu))
    exact Host.Outcome.next.inj hsame
  exact ⟨t, u, hrun.trans ht, hu, (congrArg State.buf hviews :), (congrArg State.dstLen hviews :),
    (congrArg State.err hviews :),
    (congrArg State.vault hviews :), (congrArg State.keyValid hviews :), (congrArg State.stDone hviews :),
    (congrArg State.stPass hviews :), (congrArg State.latched hviews :), htdone.trans hudone.symm,
    (congrArg State.srcAddr hviews :), (congrArg State.srcLen hviews :), (congrArg State.dstAddr hviews :),
    (congrArg State.trng hviews :), (congrArg State.trngDraws hviews :), (congrArg State.bufReads hviews :)⟩
end

section
/-! PROOF. What each command does where all its checks pass (the pseudocode of 40_hash_engine.md R74, 41_block_cipher.md R89
and R90, 42_chained_mode.md R97 and R98, 43_key_enclave.md R106, 44_payload_framing.md R113 and R117,
45_selftest_and_control.md R129), and what the key check does (43_key_enclave.md R104). -/

namespace Sys2Proof.Machine

/-- A latched command whose rule gives `t` answers `t`. -/
theorem exec_of_ruleOf {i : Instr} {s t : State} {L : Latched} (hL : s.latched = some L) (h : ruleOf i L s = t) :
    exec i s = .next t :=
  (exec_of_latched hL).trans (congrArg Host.Outcome.next h)

section
variable {L : Latched} {s : State}

/-- A command that reads its input, writes `n` bytes of output and succeeds. -/
theorem exec_of_output {i : Instr} {a n : Nat} {bs : List Byte} (hL : s.latched = some L)
    (h : ruleOf i L s = (s.noteRead.memWrite a bs).succeed n) :
    exec i s = .next { s with
      latched := none, intDone := true, err := .ok, dstLen := BitVec.ofNat 32 n, bufReads := s.bufReads + 1
      buf := s.buf.writeBytes a bs } :=
  exec_of_ruleOf hL h

/-- A command that reads its input, stores a key and succeeds. -/
theorem exec_of_keyStored {i : Instr} {v : Key} (hL : s.latched = some L)
    (h : ruleOf i L s = (s.noteRead.setVault v true).succeed 0) :
    exec i s = .next { s with
      latched := none, intDone := true, err := .ok, dstLen := 0, bufReads := s.bufReads + 1
      vault := v, keyValid := true } :=
  exec_of_ruleOf hL h

/-- With the gate passed, the first check of every keyed command is KEY_VALID (R104, R132). -/
theorem ruleOf_of_keyed {i : Instr} (hkeyed : keyed i = true) (hp : s.stPass = true) (hk : s.keyValid = false) :
    ruleOf i L s = s.raise .noKey := by
  have hgate : ¬ (!s.stPass) = true := by simp [hp]
  have hkey : (!s.keyValid) = true := by simp [hk]
  cases i with
  | nop | hash | setPassword | invalidate | selftest => cases hkeyed
  | ecbEncrypt | ecbDecrypt | cbcEncrypt | cbcDecrypt | payloadEncrypt | payloadDecrypt =>
    exact (if_neg hgate).trans (if_pos hkey)

variable (hp : s.stPass = true)
include hp

theorem hashRule_of_checked (hsrc : L.srcInBounds s.cfg = true) (hdst : L.dstInBounds s.cfg 64 = true) :
    hashRule L s = (s.noteRead.memWrite L.dstOff (hashOf (s.input L)).toList).succeed 64 := by
  simp [hashRule, hp, hsrc, hdst]

theorem setPasswordRule_of_checked (hsrc : L.srcInBounds s.cfg = true) :
    setPasswordRule L s =
      (s.noteRead.setVault (obfuscate (deriveKey s.cfg.stretchRounds.toNat (s.input L))) true).succeed 0 := by
  simp [setPasswordRule, hp, hsrc]

variable (hk : s.keyValid = true) (hsrc : L.srcInBounds s.cfg = true)
include hk hsrc

theorem ecbEncryptRule_of_checked (hlen : L.length = 16) (hdst : L.dstInBounds s.cfg 16 = true) :
    ecbEncryptRule L s = (s.noteRead.memWrite L.dstOff
      (tfEncrypt s.vaultSchedule (bytesToVector 16 (s.memRead L.srcOff 16))).toList).succeed 16 := by
  simp [ecbEncryptRule, hp, hk, hsrc, hlen, hdst]

theorem ecbDecryptRule_of_checked (hlen : L.length = 16) (hdst : L.dstInBounds s.cfg 16 = true) :
    ecbDecryptRule L s = (s.noteRead.memWrite L.dstOff
      (tfDecrypt s.vaultSchedule (bytesToVector 16 (s.memRead L.srcOff 16))).toList).succeed 16 := by
  simp [ecbDecryptRule, hp, hk, hsrc, hlen, hdst]

theorem cbcEncryptRule_of_checked (hdst : L.dstInBounds s.cfg (ceil16 L.length) = true) :
    cbcEncryptRule L s = (s.noteRead.memWrite L.dstOff
      (cbcEnc s.vaultSchedule (s.input L))).succeed (ceil16 L.length) := by
  simp [cbcEncryptRule, hp, hk, hsrc, hdst]

theorem cbcDecryptRule_of_checked (hlen : L.length % 16 = 0) (hdst : L.dstInBounds s.cfg L.length = true) :
    cbcDecryptRule L s = (s.noteRead.memWrite L.dstOff
      (cbcDec s.vaultSchedule (s.input L))).succeed L.length := by
  simp [cbcDecryptRule, hp, hk, hsrc, hlen, hdst]

theorem payloadEncryptRule_of_empty (hlen : L.length = 0) (hdst : L.dstInBounds s.cfg s.cfg.markerLen = true) :
    payloadEncryptRule L s = (s.memWrite L.dstOff s.cfg.marker).succeed s.cfg.markerLen := by
  simp [payloadEncryptRule, hp, hk, hsrc, hlen, hdst]

theorem payloadDecryptRule_of_checked : payloadDecryptRule L s = parsePayload L (s.input L) s.noteRead := by
  simp [payloadDecryptRule, hp, hk, hsrc]

end

section
variable {L : Latched} {s : State}

/-- Once it asks for its token, PAYLOAD_ENCRYPT has passed every other check (R113). -/
theorem payloadEncryptRule_of_tokenAsked (h : TokenAsked .payloadEncrypt L s) :
    payloadEncryptRule L s = sealPayload L s := by
  obtain ⟨_, hlen, hp, hk, hsrc, hdst⟩ := h
  have hlen' : L.length ≠ 0 := Latched.length_ne_zero.mpr hlen
  have hdst' : L.dstInBounds s.cfg (payloadLength s.cfg.markerLen L.length) = true := dstInBounds_iff.mpr hdst
  simp [payloadEncryptRule, hp, hk, srcInBounds_iff.mpr hsrc, hlen', hdst']

theorem sealPayload_of_unavailable (h : s.trngAnswer = .unavailable) :
    sealPayload L s = s.noteTrng.raise .randomnessUnavailable := by
  simp only [sealPayload, h]

theorem sealPayload_of_token {tok : Token} (h : s.trngAnswer = .bytes tok) :
    sealPayload L s = (s.noteTrng.noteRead.memWrite L.dstOff
      (payloadOf s.cfg.marker s.vaultSchedule (tok.toList ++ s.input L))).succeed
        (payloadLength s.cfg.markerLen L.length) := by
  simp only [sealPayload, h]

/-- How many answers the randomness source has given, and those to come (R137; log entry 3). -/
def State.draws (s : State) : List TrngAnswer × Nat := (s.trng, s.trngDraws)

/-- Whatever the answer, the randomness source is asked once. -/
theorem sealPayload_draws : (sealPayload L s).draws = s.noteTrng.draws := by
  cases h : s.trngAnswer with
  | unavailable => rw [sealPayload_of_unavailable h]; rfl
  | bytes tok => rw [sealPayload_of_token h]; rfl

/-- Only after those checks is it asked. -/
theorem Completion.draws {i : Instr} {t : State} (h : Completion i L s t) (hasked : ¬ TokenAsked i L s) :
    t.draws = s.draws := by
  cases h with
  | unavailable h | sealed h => exact absurd h hasked
  | failed | failedOnInput | silent | silentOnInput | unreadOutput | output | keyStored | keyErased | testPassed
  | testFailed => rfl

/-! The three parts of a payload (R110, R117). -/

theorem hasMarker_append (m bs : List Byte) : hasMarker m (m ++ bs) = true := by
  simp [hasMarker]

theorem storedDigest_append (m : List Byte) (d : Digest) (c : List Byte) :
    storedDigest m.length (m ++ d.toList ++ c) = d := by
  rw [storedDigest, List.append_assoc, List.drop_left]
  ext i hi
  simp [bytesToVector, List.getElem?_append]

theorem cipherRegion_append (m : List Byte) (d : Digest) (c : List Byte) :
    cipherRegion m.length (m ++ d.toList ++ c) = c :=
  List.drop_left' (by simp)

theorem openPayload_of_none {p : List Byte}
    (h : resolvePadding (cbcDec s.vaultSchedule (cipherRegion s.cfg.markerLen p)) (storedDigest s.cfg.markerLen p) =
      none) :
    openPayload L p s = s.raise .integrityMismatch := by
  simp only [openPayload, h]

theorem openPayload_of_some {p : List Byte} {r : Nat}
    (h : resolvePadding (cbcDec s.vaultSchedule (cipherRegion s.cfg.markerLen p)) (storedDigest s.cfg.markerLen p) =
      some r) :
    openPayload L p s = (s.memWrite L.dstOff
      (((cbcDec s.vaultSchedule (cipherRegion s.cfg.markerLen p)).take r).drop 16)).succeed (r - 16) := by
  simp only [openPayload, h]

/-- The marker alone is the empty document (R117). -/
theorem parsePayload_of_marker (hlen : L.length = s.cfg.markerLen) (hdst : L.dstInBounds s.cfg 0 = true) :
    parsePayload L s.cfg.marker s = s.succeed 0 := by
  have hmarker : hasMarker s.cfg.marker s.cfg.marker = true := by simpa using hasMarker_append s.cfg.marker []
  simp [parsePayload, hmarker, hlen, hdst]

/-- A payload of a marker, a digest and two or more whole blocks passes the checks of R115. -/
theorem parsePayload_of_parts {d : Digest} {c : List Byte} (hlen : L.length = s.cfg.markerLen + 64 + c.length)
    (hwhole : c.length % 16 = 0) (hlong : 32 ≤ c.length) (hdst : L.dstInBounds s.cfg (c.length - 16) = true) :
    parsePayload L (s.cfg.marker ++ d.toList ++ c) s = openPayload L (s.cfg.marker ++ d.toList ++ c) s := by
  have hmarker : hasMarker s.cfg.marker (s.cfg.marker ++ d.toList ++ c) = true := by
    rw [List.append_assoc]
    exact hasMarker_append _ _
  have hregion : L.length - s.cfg.markerLen - 64 = c.length := by omega
  have hne : L.length ≠ s.cfg.markerLen := by omega
  have hge : ¬ L.length < s.cfg.markerLen + 81 := by omega
  simp [-List.append_assoc, parsePayload, hmarker, hregion, hne, hge, hwhole, hdst]

end

end Sys2Proof.Machine

open Sys2Proof Sys2Proof.Machine

/-- Settles O28: with the gate passed, the key check comes first in every keyed command's rule. -/
theorem invalidVaultRefusesKeyedCommands : Obligations.InvalidVaultRefusesKeyedCommands :=
  fun _ _ _ hL hkeyed hp hk => exec_of_ruleOf hL (ruleOf_of_keyed hkeyed hp hk)

/-- Settles O29: a PAYLOAD_ENCRYPT that passes the checks is `sealPayload`, which asks once, and no other completion asks. -/
theorem tokenIsDrawnOnceByNonEmptyPayloadEncrypt : Obligations.TokenIsDrawnOnceByNonEmptyPayloadEncrypt := by
  intro s t L i hL h
  cases (exec_of_latched hL).symm.trans h
  refine ⟨fun hasked => ?asked, fun hasked => ?notAsked⟩
  case asked =>
    obtain rfl : i = .payloadEncrypt := hasked.1
    rw [ruleOf, payloadEncryptRule_of_tokenAsked hasked]
    exact Prod.mk_inj.mp sealPayload_draws
  case notAsked => exact Prod.mk_inj.mp ((ruleOf_completion i L s).draws hasked)

/-- Settles O31: the success of HASH is its output. -/
theorem hashWritesTheDigestOfItsInput : Obligations.HashWritesTheDigestOfItsInput := fun _ _ hL hp hsrc hdst =>
  exec_of_output hL (hashRule_of_checked hp (srcInBounds_iff.mpr hsrc) (dstInBounds_iff.mpr hdst))

/-- Settles O32: the success of either command is its output. -/
theorem ecbCommandsWriteTheBlockUnderTheVaultKey : Obligations.EcbCommandsWriteTheBlockUnderTheVaultKey := by
  intro s L hL hp hk hlen hsrc hdst
  have hsrc' : L.srcInBounds s.cfg = true := srcInBounds_iff.mpr (hlen ▸ hsrc)
  have hdst' : L.dstInBounds s.cfg 16 = true := dstInBounds_iff.mpr hdst
  exact ⟨exec_of_output hL (ecbEncryptRule_of_checked hp hk hsrc' hlen hdst'),
    exec_of_output hL (ecbDecryptRule_of_checked hp hk hsrc' hlen hdst')⟩

/-- Settles O33: the success of CBC_ENCRYPT is its output. -/
theorem cbcEncryptWritesTheChainedCiphertext : Obligations.CbcEncryptWritesTheChainedCiphertext :=
  fun _ _ hL hp hk hsrc hdst =>
    exec_of_output hL (cbcEncryptRule_of_checked hp hk (srcInBounds_iff.mpr hsrc) (dstInBounds_iff.mpr hdst))

/-- Settles O34: the success of CBC_DECRYPT is its output, whose length is the latched length. -/
theorem cbcDecryptWritesTheUnchainedPlaintext : Obligations.CbcDecryptWritesTheUnchainedPlaintext := by
  intro s L hL hp hk hlen hsrc hdst
  have hword : BitVec.ofNat 32 L.length = L.len := by
    rw [Latched.length, BitVec.ofNat_toNat, BitVec.setWidth_eq]
  have h := exec_of_output (i := .cbcDecrypt) hL
    (cbcDecryptRule_of_checked hp hk (srcInBounds_iff.mpr hsrc) hlen (dstInBounds_iff.mpr hdst))
  rw [hword] at h
  exact h

/-- Settles O35: the vault gets the obfuscated key, which retrieval gives back (R102), and the key's bytes are those of
`KeyDerivationStretchesAndFolds`. -/
theorem setPasswordStoresTheDerivedKey : Obligations.SetPasswordStoresTheDerivedKey := by
  intro s L hL hp hsrc
  refine ⟨_, deriveKey s.cfg.stretchRounds.toNat (s.input L), _,
    exec_of_keyStored hL (setPasswordRule_of_checked hp (srcInBounds_iff.mpr hsrc)), rfl, fun j => ⟨?_, ?_⟩,
    deobfuscate_obfuscate _, rfl⟩
  · exact keyDerivationStretchesAndFolds s.cfg.stretchRounds.toNat (s.input L) j
  · exact obfuscate_getElem _ j.isLt

/-- Settles O37. -/
theorem payloadEncryptOfNothingWritesTheMarker : Obligations.PayloadEncryptOfNothingWritesTheMarker := by
  intro s L hL hp hk hlen hsrc hdst
  have hzero : L.len.toNat = 0 := by rw [hlen]; rfl
  have hsrc' : L.srcInBounds s.cfg = true := srcInBounds_iff.mpr (by rwa [hzero, Nat.add_zero])
  rw [Params.marker_length] at hdst ⊢
  exact exec_of_ruleOf hL (payloadEncryptRule_of_empty hp hk hsrc' hzero (dstInBounds_iff.mpr hdst))

/-- Settles O38: once every other check has passed, the answer of the randomness source decides. -/
theorem payloadEncryptWritesMarkerDigestAndCiphertext : Obligations.PayloadEncryptWritesMarkerDigestAndCiphertext := by
  refine ⟨fun s a rest h => by simp only [State.trngAnswer, h], fun s h => by simp only [State.trngAnswer, h], ?_⟩
  intro s L hL hp hk hlen hsrc hdst
  rw [Params.marker_length] at hdst ⊢
  have hasked : TokenAsked .payloadEncrypt L s := ⟨rfl, hlen, hp, hk, hsrc, hdst⟩
  have hrule : ruleOf .payloadEncrypt L s = sealPayload L s := payloadEncryptRule_of_tokenAsked hasked
  exact ⟨fun tok htok => exec_of_ruleOf hL (hrule.trans (sealPayload_of_token htok)),
    fun hnone => exec_of_ruleOf hL (hrule.trans (sealPayload_of_unavailable hnone))⟩

/-- Settles O39: the input has the marker's length and is the marker. -/
theorem payloadDecryptOfTheMarkerIsEmpty : Obligations.PayloadDecryptOfTheMarkerIsEmpty := by
  intro s L hL hp hk hsrc hdst hinput
  have hlen : L.length = s.cfg.markerLen := by
    simpa [Latched.length] using congrArg List.length hinput
  have hparse : parsePayload L (s.input L) s.noteRead = s.noteRead.succeed 0 :=
    (congrArg (parsePayload L · s.noteRead) hinput).trans
      (parsePayload_of_marker (s := s.noteRead) hlen (dstInBounds_iff.mpr hdst))
  exact exec_of_ruleOf hL ((payloadDecryptRule_of_checked hp hk (srcInBounds_iff.mpr hsrc)).trans hparse)

/-- Settles O40: the payload's parts are read back as they were put together, and the padding resolution decides. -/
theorem payloadDecryptWritesTheVerifiedText : Obligations.PayloadDecryptWritesTheVerifiedText := by
  rintro s L d c _ hL hp hk hsrc hinput hwhole hlong hdst rfl
  have hlen : L.length = s.cfg.markerLen + 64 + c.length := by
    simpa [Latched.length, Nat.add_assoc] using congrArg List.length hinput
  have hregion : cipherRegion s.cfg.markerLen (s.cfg.marker ++ d.toList ++ c) = c := by
    rw [← Params.marker_length, cipherRegion_append]
  have hdigest : storedDigest s.cfg.markerLen (s.cfg.marker ++ d.toList ++ c) = d := by
    rw [← Params.marker_length, storedDigest_append]
  have hrule : ruleOf .payloadDecrypt L s = openPayload L (s.cfg.marker ++ d.toList ++ c) s.noteRead := by
    rw [ruleOf, payloadDecryptRule_of_checked hp hk (srcInBounds_iff.mpr hsrc), State.input, Latched.srcOff,
      Latched.length, hinput]
    exact parsePayload_of_parts (s := s.noteRead) hlen hwhole hlong (dstInBounds_iff.mpr hdst)
  refine ⟨fun r hr => exec_of_ruleOf hL (hrule.trans ?found), fun hnone => exec_of_ruleOf hL (hrule.trans ?notFound)⟩
  case found =>
    rw [openPayload_of_some (s := s.noteRead) (by rwa [State.noteRead_cfg, hregion, hdigest]), State.noteRead_cfg,
      hregion]
    rfl
  case notFound =>
    rw [openPayload_of_none (s := s.noteRead) (by rwa [State.noteRead_cfg, hregion, hdigest])]
    rfl

/-- Settles O41: the rule's two ends say the same as its result does. -/
theorem selftestWritesItsResult : Obligations.SelftestWritesItsResult := by
  intro s L hL
  refine exec_of_ruleOf hL ?_
  rw [ruleOf]
  unfold selftestRule
  generalize selftestRun = ok
  cases ok <;> rfl
end

section
/-! PROOF. The laws of the payload framing (44_payload_framing.md R114, R119): the ciphertext gives the token back, so different
tokens give different payloads, and a payload read back from the buffer opens to the plaintext it was sealed from. -/

namespace Sys2Proof.Machine

/-- The zero-extension of token and text begins with the token. -/
theorem zeroExt_take_token (tok : Token) (x : List Byte) : (zeroExt (tok.toList ++ x)).take 16 = tok.toList := by
  rw [zeroExt, List.append_assoc]
  exact List.take_left' (by simp)

/-- The buffer reads back what was written last (R45, R50). -/
theorem memRead_of_written {s : State} {m : Memory} {a : Nat} {bs : List Byte} (h : s.buf = m.writeBytes a bs) :
    s.memRead a bs.length = bs := by
  apply List.ext_getElem (by simp)
  intro i _ hi
  have hread : s.buf.read (a + i) = some bs[i] := by
    rw [h, Memory.read_writeBytes, if_pos (by omega), Nat.add_sub_cancel_left, List.getElem?_eq_getElem hi]
  rw [memRead_getElem _ _ _ _ hi, bufByte_of_read hread]

/-- A length that the zero-extension of `x` can be cut to. -/
theorem zeroExt_take {x : List Byte} {j : Nat} (h : x.length + j ≤ ceil16 x.length) :
    (zeroExt x).take (x.length + j) = x ++ zeros j := by
  rw [zeroExt, List.take_length_add_append, zeros, List.take_replicate, zeros, Nat.min_eq_left (by omega)]

theorem zeroExt_drop {x : List Byte} {j : Nat} :
    (zeroExt x).drop (x.length + j) = zeros ((zeroExt x).length - (x.length + j)) := by
  have hrest : ceil16 x.length - x.length - j = ceil16 x.length - (x.length + j) := by omega
  rw [zeroExt_length, zeroExt, List.drop_length_add_append, zeros, List.drop_replicate, hrest, zeros]

/-- The padding resolution of a zero-extended message finds the message with `j` zero bytes, the most that still have the
message's digest (R116, R119). -/
theorem resolvePadding_zeroExt {x : List Byte} (hx : 0 < x.length) :
    ∃ j, x.length + j ≤ ceil16 x.length ∧ resolvePadding (zeroExt x) (hashOf x) = some (x.length + j) ∧
      hashOf (x ++ zeros j) = hashOf x ∧
      ∀ n, j < n → x.length + n ≤ ceil16 x.length → hashOf (x ++ zeros n) ≠ hashOf x := by
  have hlen : (zeroExt x).length = ceil16 x.length := zeroExt_length x
  have hlt : ceil16 x.length < x.length + 16 := ceil16_lt x.length
  have hle : x.length ≤ ceil16 x.length := le_ceil16 x.length
  have hlong : 16 ≤ (zeroExt x).length := by rw [hlen, ceil16]; omega
  obtain ⟨hsome, hnone⟩ := resolvePaddingFindsTheLongestMatch (zeroExt x) (hashOf x) hlong
  have hself : hashOf ((zeroExt x).take x.length) = hashOf x := by rw [zeroExt, List.take_left]
  cases hr : resolvePadding (zeroExt x) (hashOf x) with
  | none => exact absurd hself (hnone.mp hr x.length (by omega) (by omega) (zeroExt_drop (j := 0)))
  | some r =>
    obtain ⟨_, hrle, _, hdigest, hlongest⟩ := (hsome r).mp hr
    have hge : x.length ≤ r := by
      by_contra hshort
      exact hlongest x.length (by omega) (by omega) hself
    obtain ⟨j, rfl⟩ := Nat.exists_eq_add_of_le hge
    have hj : x.length + j ≤ ceil16 x.length := by omega
    refine ⟨j, hj, rfl, zeroExt_take hj ▸ hdigest, fun n hn hfits => ?_⟩
    exact zeroExt_take hfits ▸ hlongest (x.length + n) (by omega) (by omega)

/-- PAYLOAD_DECRYPT of a payload that stands in the buffer as PAYLOAD_ENCRYPT writes it (R113, R117). -/
theorem exec_payloadDecrypt_of_payload {s : State} {L : Latched} {m : Memory} {x : List Byte} {r : Nat}
    (hL : s.latched = some L) (hp : s.stPass = true) (hk : s.keyValid = true)
    (hbuf : s.buf = m.writeBytes L.src.toNat
      (s.cfg.marker ++ (hashOf x).toList ++ cbcEnc (keySchedule (deobfuscate s.vault)) x))
    (hx : 16 < x.length) (hlen : L.len.toNat = s.cfg.marker.length + 64 + ceil16 x.length)
    (hsrc : L.src.toNat + L.len.toNat ≤ s.cfg.bufBytes) (hdst : L.dst.toNat + (ceil16 x.length - 16) ≤ s.cfg.bufBytes)
    (hr : resolvePadding (zeroExt x) (hashOf x) = some r) :
    exec .payloadDecrypt s = .next { s with
      latched := none, intDone := true, err := .ok, dstLen := BitVec.ofNat 32 (r - 16), bufReads := s.bufReads + 1
      buf := s.buf.writeBytes L.dst.toNat (((zeroExt x).take r).drop 16) } := by
  have hc : (cbcEnc (keySchedule (deobfuscate s.vault)) x).length = ceil16 x.length := cbcEnc_length _ x
  have hinput : s.memRead L.src.toNat L.len.toNat =
      s.cfg.marker ++ (hashOf x).toList ++ cbcEnc (keySchedule (deobfuscate s.vault)) x := by
    have hall := memRead_of_written hbuf
    rwa [List.length_append, List.length_append, hc, hashOf_toList_length, ← hlen] at hall
  have hlong : 32 ≤ ceil16 x.length := by unfold ceil16; omega
  have hverified := payloadDecryptWritesTheVerifiedText s L (hashOf x) (cbcEnc (keySchedule (deobfuscate s.vault)) x)
    (zeroExt x) hL hp hk hsrc hinput (by rw [hc, ceil16_mod]) (by rwa [hc]) (by rwa [hc]) (cbcDec_cbcEnc _ x).symm
  exact hverified.1 r hr

/-- The text with `j` zero bytes is what stands after the token. -/
theorem openedText_eq {tok : Token} {txt : List Byte} {j : Nat}
    (hj : (tok.toList ++ txt).length + j ≤ ceil16 (tok.toList ++ txt).length) :
    ((zeroExt (tok.toList ++ txt)).take ((tok.toList ++ txt).length + j)).drop 16 = txt ++ zeros j := by
  rw [zeroExt_take hj, List.append_assoc]
  exact List.drop_left' (by simp)

/-- What a successful PAYLOAD_ENCRYPT of a non-empty text leaves for a later command (R113). -/
theorem exec_payloadEncrypt_leaves {s : State} {L : Latched} {tok : Token} (hL : s.latched = some L)
    (hasked : TokenAsked .payloadEncrypt L s) (htok : s.trngAnswer = .bytes tok) :
    ∃ t, exec .payloadEncrypt s = .next t ∧ t.err = .ok ∧ t.stPass = true ∧ t.keyValid = true ∧ t.vault = s.vault ∧
      t.cfg = s.cfg ∧ t.buf = s.buf.writeBytes L.dst.toNat
        (s.cfg.marker ++ (hashOf (tok.toList ++ s.memRead L.src.toNat L.len.toNat)).toList ++
          cbcEnc (keySchedule (deobfuscate s.vault)) (tok.toList ++ s.memRead L.src.toNat L.len.toNat)) := by
  obtain ⟨_, hlen, hp, hk, hsrc, hdst⟩ := hasked
  rw [← Params.marker_length] at hdst
  have hwritten := payloadEncryptWritesMarkerDigestAndCiphertext.2.2 s L hL hp hk hlen hsrc hdst
  exact ⟨_, hwritten.1 tok htok, rfl, hp, hk, rfl, rfl, rfl⟩

end Sys2Proof.Machine

open Sys2Proof Sys2Proof.Machine

/-- Settles O53: equal payloads have equal ciphertexts, which decrypt to equal tokens. -/
theorem payloadsWithDifferentTokensDiffer : Obligations.PayloadsWithDifferentTokensDiffer := by
  intro m k tok tok' x hne hsame
  have hcipher : cbcEnc (keySchedule k) (tok.toList ++ x) = cbcEnc (keySchedule k) (tok'.toList ++ x) :=
    (List.append_inj hsame (by simp)).2
  have hplain : zeroExt (tok.toList ++ x) = zeroExt (tok'.toList ++ x) := by
    rw [← cbcDec_cbcEnc (keySchedule k), hcipher, cbcDec_cbcEnc]
  have htoken : tok.toList = tok'.toList := by
    rw [← zeroExt_take_token tok x, hplain, zeroExt_take_token]
  exact hne (Vector.toList_inj.mp htoken)

/-- Settles O54: the payload in the buffer is read back and decrypts to the zero-extended token and text, in which the padding
resolution finds the text with `j` zero bytes. -/
theorem payloadRoundTrip : Obligations.PayloadRoundTrip := by
  intro s L L' tok txt hL hp hk hlen hsrc hdst htok htxt hsrc' hlen' hdst'
  have hn : L.len.toNat = txt.length := by rw [htxt, memRead_length]
  have hpos : txt.length ≠ 0 := hn ▸ Latched.length_ne_zero.mpr hlen
  have hxlen : (tok.toList ++ txt).length = 16 + txt.length := by simp
  have hasked : TokenAsked .payloadEncrypt L s := ⟨rfl, hlen, hp, hk, hsrc, Params.marker_length _ ▸ hdst⟩
  obtain ⟨t, hencrypt, herr, hpass, hvalid, hvault, hcfg, hbuf⟩ := exec_payloadEncrypt_leaves hL hasked htok
  rw [← htxt, ← hsrc', ← hvault, ← hcfg] at hbuf
  rw [hn, ← hxlen] at hlen' hdst' hdst
  rw [← hcfg] at hlen' hdst' hdst
  obtain ⟨j, hj, hresolve, hdigest, hlongest⟩ := resolvePadding_zeroExt (x := tok.toList ++ txt) (by omega)
  have hdecrypt := exec_payloadDecrypt_of_payload (s := { t with latched := some L' }) rfl hpass hvalid hbuf (by omega)
    hlen' (by rwa [hlen', hsrc']) hdst' hresolve
  rw [openedText_eq hj] at hdecrypt
  have hout : (tok.toList ++ txt).length + j - 16 = (txt ++ zeros j).length := by
    rw [hxlen, List.length_append, zeros_length]
    omega
  have hfits : L'.dst.toNat + (txt ++ zeros j).length ≤ t.cfg.bufBytes := by omega
  rw [hout] at hdecrypt
  rw [hxlen] at hj hlongest
  refine ⟨t, _, j, hencrypt, herr, hdecrypt, rfl, hj, ?length, fun i hi => ?text, hdigest, hlongest,
    fun hnone => ?exact⟩
  case length => exact (toNat_ofNat_of_fits hfits).trans (by simp)
  case text =>
    have hin : i < (txt ++ zeros j).length := by simpa using hi
    exact (Memory.read_writeBytes _ _ _ _).trans
      ((if_pos (by omega)).trans (congrArg ((txt ++ zeros j)[·]?) (Nat.add_sub_cancel_left _ _)))
  case exact =>
    by_contra hj0
    exact hnone j (Nat.pos_of_ne_zero hj0) hj hdigest
end

section
/-! PROOF. The two fixed permutations (41_block_cipher.md R78, R79): the printed tables are the construction's, and the
construction is one-to-one because its 4-bit tables are and the mixing between them can be undone. -/

namespace Sys2Proof.Machine

/-- The mixing of two nibbles, before each pair of tables (R78). -/
def mixNibbles (a b : Nibble) : Nibble × Nibble := (a ^^^ b, a ^^^ b.rotateRight 1 ^^^ (8 * a))

/-- What undoes it: `a' ^^^ ror1 b'` of the mixed nibbles is `a ^^^ (a >>> 1)`, the Gray code of `a`. -/
def unmixNibbles (m : Nibble × Nibble) : Nibble × Nibble :=
  let g := m.2 ^^^ m.1.rotateRight 1
  let a := g ^^^ (g >>> 1) ^^^ (g >>> 2) ^^^ (g >>> 3)
  (a, a ^^^ m.1)

theorem unmixNibbles_mixNibbles : ∀ a b : Nibble, unmixNibbles (mixNibbles a b) = (a, b) := by
  decide

theorem mixNibbles_inj {a b a' b' : Nibble} (h : mixNibbles a b = mixNibbles a' b') : a = a' ∧ b = b' := by
  rw [← Prod.mk_inj, ← unmixNibbles_mixNibbles, h, unmixNibbles_mixNibbles]

/-- Each of the four 4-bit tables holds no value twice (R78). -/
structure NibbleTables.OneToOne (q : NibbleTables) : Prop where
  t0 : Function.Injective (nibbleAt q.t0)
  t1 : Function.Injective (nibbleAt q.t1)
  t2 : Function.Injective (nibbleAt q.t2)
  t3 : Function.Injective (nibbleAt q.t3)

theorem q0Nibbles_oneToOne : q0Nibbles.OneToOne := by
  constructor <;> unfold Function.Injective <;> decide

theorem q1Nibbles_oneToOne : q1Nibbles.OneToOne := by
  constructor <;> unfold Function.Injective <;> decide

/-- The construction of R78 with its mixing named: mix, look up, mix, look up, and swap. -/
theorem permuteByTables_eq (q : NibbleTables) (x : Byte) :
    permuteByTables q x =
      let m := mixNibbles (x.extractLsb' 4 4) (x.extractLsb' 0 4)
      let n := mixNibbles (nibbleAt q.t0 m.1) (nibbleAt q.t1 m.2)
      nibbleAt q.t3 n.2 ++ nibbleAt q.t2 n.1 := rfl

/-- A byte is its two nibbles. -/
theorem nibbles_append (x : Byte) : x.extractLsb' 4 4 ++ x.extractLsb' 0 4 = x :=
  (BitVec.extractLsb'_append_extractLsb'_eq_extractLsb' rfl).trans BitVec.extractLsb'_eq_self

/-- Two words put together from parts of the same sizes are equal where the parts are. -/
theorem bitVec_append_inj {m n : Nat} {x x' : BitVec m} {y y' : BitVec n} (h : x ++ y = x' ++ y') :
    x = x' ∧ y = y' := by
  have hy : y = y' := by simpa [BitVec.setWidth_append_eq_right] using congrArg (BitVec.setWidth n) h
  subst hy
  exact ⟨(BitVec.append_left_inj y).mp h, rfl⟩

theorem permuteByTables_injective {q : NibbleTables} (hq : q.OneToOne) : Function.Injective (permuteByTables q) := by
  intro x y h
  rw [permuteByTables_eq, permuteByTables_eq] at h
  obtain ⟨hb4, ha4⟩ := bitVec_append_inj h
  obtain ⟨ha2, hb2⟩ := mixNibbles_inj (Prod.ext (hq.t2 ha4) (hq.t3 hb4))
  obtain ⟨ha0, hb0⟩ := mixNibbles_inj (Prod.ext (hq.t0 ha2) (hq.t1 hb2))
  rw [← nibbles_append x, ha0, hb0, nibbles_append]

/-- The printed tables are what the construction gives (R79). -/
theorem q0_eq_permuteByTables : ∀ x : Byte, q0 x = permuteByTables q0Nibbles x := by
  decide

theorem q1_eq_permuteByTables : ∀ x : Byte, q1 x = permuteByTables q1Nibbles x := by
  decide

end Sys2Proof.Machine

open Sys2Proof Sys2Proof.Machine

/-- Settles O47: the tables are compared at every byte, and on a finite type a one-to-one function is a bijection. -/
theorem fixedPermutationsAreBuiltFromTheirTables : Obligations.FixedPermutationsAreBuiltFromTheirTables := by
  have hq0 : q0 = permuteByTables q0Nibbles := funext q0_eq_permuteByTables
  have hq1 : q1 = permuteByTables q1Nibbles := funext q1_eq_permuteByTables
  refine ⟨fun x => ⟨q0_eq_permuteByTables x, q1_eq_permuteByTables x⟩, ?_, ?_⟩
  · exact hq0 ▸ Finite.injective_iff_bijective.mp (permuteByTables_injective q0Nibbles_oneToOne)
  · exact hq1 ▸ Finite.injective_iff_bijective.mp (permuteByTables_injective q1Nibbles_oneToOne)
end
